-- ==== Sys2Proof/Word.lean ====
section
/-!
DEFINITION. The plainest data of the part: bytes, and a venue time as the host writes it into a
request slot. Everything a host or a line partner sends as bits is a `BitVec`; every count, time
or bound the part itself keeps is a `Nat` or an `Int`.
-/

namespace Sys2Proof

/-- One byte of a host block, an order frame or a reference frame. -/
abbrev Byte := BitVec 8

/-- A time as a request body carries it (10. Layouts, "Time"): 48 bits of seconds and a 32-bit
nanoseconds field. The epoch bits 63:48 of the time word are ignored on read (R193), so they are
no part of it. -/
structure HostTime where
  sec : BitVec 48
  ns : BitVec 32
  deriving DecidableEq, Repr

end Sys2Proof
end

