-- ==== Sys2Proof/Config.lean ====
section
/-!
DEFINITION. What the part fixes once and for all (the constants the rules name) and the one value
the manual leaves open.
-/

namespace Sys2Proof.Config

/-- Nanoseconds in a second. -/
abbrev second : Nat := 1000000000

/-- Units of the fraction in one nanosecond, 2^32 (R1). -/
abbrev unit : Nat := 4294967296

/-- The seconds count wraps at 2^48 (R1). -/
abbrev secondsWrap : Nat := 281474976710656

/-- The nominal increment, 4 ns in units of 2^-32 ns (R4). -/
abbrev nominalInc : Nat := 17179869184

/-- The largest epoch (R9). -/
abbrev epochMax : Nat := 65535

/-- The saturation of θ and of E, in ns (R33, R38). -/
abbrev errorMax : Nat := 4000000000

/-- The missing-marker timer from a reference marker, in ns of own time (R30). -/
abbrev missingFirst : Nat := 1500000000

/-- The lower and upper end of the marker interval, in ns of own time (R29, R31). -/
abbrev earlyBelow : Nat := 999000000
abbrev lateAbove : Nat := 1001000000

/-- A latched frame ended at least this long before the marker, in ns of own time (R31). -/
abbrev frameLead : Nat := 1000000

/-- Entries of a line FIFO (R60), an ack queue (R61), the engine FIFO (R155), PST (R160) and the
outstanding event entries (R153). -/
abbrev fifoDepth : Nat := 32
abbrev ackDepth : Nat := 64
abbrev engineDepth : Nat := 16
abbrev storeDepth : Nat := 1024

/-- The FIFO fills at which a line turns to HOLD and back to GO (R63). -/
abbrev fifoHold : Nat := 24
abbrev fifoGo : Nat := 8

/-- The largest sequence number (R80). -/
abbrev seqMax : Nat := 18446744073709551615

/-- Saturation of the 32-bit, 16-bit and 4-bit counts (R69, R34, R133). -/
abbrev count32 : Nat := 4294967295
abbrev count16 : Nat := 65535
abbrev count4 : Nat := 15

/-- FREE VALUE. The epoch in the "time the step would give" field of a CLOCK HELD record for a
backward step held at epoch 65,535. R12 would increment the epoch, R9 lets none follow 65,535, and
no rule says what the field then holds (log entry 15). It has no body: nothing can be proved of it.
The argument is the model's count of such values drawn so far. -/
opaque heldEpochAtLimit : Nat → BitVec 16

/-- FREE VALUE. The 8 bytes of the D field of a CLOCK HELD record whose D does not fit a signed 64-bit
field. R33 makes D wide enough for any pair of 48-bit second counts, the layout of 10.5 gives it 8
bytes, and no rule says what a wider D leaves there (log entry 16). No body. -/
opaque heldDTooWide : Int → BitVec 64

end Sys2Proof.Config
end

