-- ==== Sys2Proof/Syntax.lean ====
section
/-!
DEFINITION. The commands the part takes: one constructor of `Instr` for each row of
spec/opcode_table.json, with the operands that come to the part from outside. A command is an event
at one of the part's connections (a symbol, a pin, a completed host access, a register write), a
request slot being taken, or an event of the part's own (a timer running out, a release).
-/

namespace Sys2Proof

/-- The three chains of CHE (R140). -/
inductive Chain | control | event | capture
  deriving DecidableEq, Repr

/-- The two check inputs (R132). -/
inductive CheckInput | chk0 | chk1
  deriving DecidableEq, Repr

/-- The two supply rails (9.7). -/
inductive Rail | v33 | v09
  deriving DecidableEq, Repr

/-- Why the reference receiver lost sync (R25). -/
inductive SyncLoss | signalLost | malformedRun
  deriving DecidableEq, Repr

/-- Why an order link goes DOWN (R49). -/
inductive LinkLoss | malformedRun | lockLost
  deriving DecidableEq, Repr

/-- What ended a reference frame (R27). -/
inductive RefEnd | frameEnd | symbol25 | frameStart | idle | malformed
  deriving DecidableEq, Repr

/-- What ended an order frame (R52, R55). -/
inductive FrameEnd | eof | idle | sof | runaway
  deriving DecidableEq, Repr

/-- The half of a chain address register a write reaches (R181). -/
inductive AddrPart | whole | low | high
  deriving DecidableEq, Repr

/-- The header of a block as a header read returns it: the fields the part uses (R138, R192). -/
structure BlockHeader where
  next : BitVec 64
  state : Byte
  flags : Byte
  capacity : BitVec 32
  used : BitVec 32
  deriving DecidableEq, Repr

/-- The 16-byte head of a request slot: the fields the part uses (10.4, R148). -/
structure SlotHead where
  kind : BitVec 16
  length : BitVec 16
  status : Byte
  tag : BitVec 32
  deriving DecidableEq, Repr

/-- One check input's settings as SET_EVIDENCE_PARAMS carries them (10.4). -/
structure CheckParams where
  enable : Byte
  filter : Byte
  limit : BitVec 32
  deriving DecidableEq, Repr

/-- A write of the register window: its offset, its width in bytes and its value (R176). -/
structure RegWrite where
  offset : Nat
  width : Nat
  value : BitVec 64
  deriving DecidableEq, Repr

/-- A write in flight that cannot be sent: its chain, and how many of the writes in flight went out before
it. -/
structure FailedWrite where
  chain : Chain
  sent : Nat
  deriving DecidableEq, Repr

/-- The commands of the part, in the table's order. -/
inductive Instr
  | powerOn
  | conventionalReset
  | supplyOutOfRange (rail : Rail)
  | oscillatorStop
  | oscillatorReturn
  | refSyncGained
  | refSyncLost (why : SyncLoss)
  /-- `data`: the data symbols received since the frame start. -/
  | refFrameEnd (data : List Byte) (how : RefEnd)
  | marker
  | missingMarkerExpiry
  | actionInstant
  | holdoverSecond
  | linkUp (line : Fin 4)
  | linkDown (line : Fin 4) (why : LinkLoss)
  | frameStart (line : Fin 4)
  /-- `data`: the data symbols received since the SOF; `malformed`: a malformed symbol stood among them. -/
  | frameEnd (line : Fin 4) (data : List Byte) (malformed : Bool) (how : FrameEnd)
  | responseSent (line : Fin 4)
  | flowSymbolSent (line : Fin 4)
  | release
  | callOpenTimer (group : Fin 64)
  | closeWindowTimer (group : Fin 64)
  | closeTimer (group : Fin 64)
  | alarmTimer (alarm : Fin 8)
  | attestBoundary
  | checkRisingTransition (input : CheckInput)
  | checkPulseDropped (input : CheckInput)
  | checkEdgeRecognized (input : CheckInput)
  | checkSecondJudged
  | flushTimerExpiry
  | blockHeaderRead (chain : Chain) (header : BlockHeader)
  | nextAddressRead (chain : Chain) (address : BitVec 64)
  | slotHeadRead (chain : Chain) (head : SlotHead)
  | setTime (target : HostTime)
  | setSteering (p k policy : Byte) (limit threshold : BitVec 32)
  | setTraceLimits (divergence floor rate : BitVec 32)
  | openLine (index : Byte)
  | closeLine (index : Byte)
  | setLineParams (index urgentA urgentB : Byte)
  | setSequence (next : BitVec 64) (run : BitVec 32)
  | armGroup (group m : Byte) (w x : BitVec 32) (callOpen close : HostTime)
  | disarmGroup (group : Byte)
  | setSeed (seed : BitVec 32)
  | setAlarm (index : Byte) (period : BitVec 32) (first : HostTime)
  | cancelAlarm (index : Byte)
  | setEvidenceParams (period : Byte) (chk0 chk1 : CheckParams)
  | queryStatus
  | setCaptureParams (flush : BitVec 32) (high low push : BitVec 16) (notifyAll : Byte)
  | stamp (group : Byte) (payloadLength : BitVec 16) (payload : List Byte)
  | extend (group : Byte)
  | abandon (group : Byte)
  | writeBackComplete
  | blockStateWriteComplete (chain : Chain)
  | recordPlace
  | captureDoneComplete
  | dmaReadFailed (chain : Chain)
  | dmaReadTimeout (chain : Chain)
  | dmaWriteFailed (failed : FailedWrite)
  | start (chain : Chain)
  | resume (chain : Chain)
  | stop (chain : Chain)
  | chainCommandUndefined (chain : Chain)
  | chainAddrWrite (chain : Chain) (part : AddrPart) (value : BitVec 64)
  | noticeClear (value : BitVec 32)
  | noticeEnableWrite (value : BitVec 32)
  | vectorUnmasked
  | registerWriteIgnored (write : RegWrite)
  | lines
  | auctions
  | chains
  | chainsResetEffect
  | full
  | oscillatorPeriod
  deriving DecidableEq, Repr

end Sys2Proof
end

