-- ==== Sys2Proof/WellFormed.lean ====
section
/-!
DEFINITION. Which commands are well formed: the operands agree with one another as the connection
they come from makes them. The meanings are total, so an ill-formed command has a meaning as well.
-/

namespace Sys2Proof

/-- A reference frame ends at its 25th data symbol at the latest, and only there by `symbol25` (R27). -/
def RefEnd.fits (how : RefEnd) (n : Nat) : Bool :=
  if how = .symbol25 then n == 25 else decide (n ≤ 24)

/-- An order frame ends at its 253rd data byte at the latest, and only there as a runaway (R52). -/
def FrameEnd.fits (how : FrameEnd) (n : Nat) : Bool :=
  if how = .runaway then n == 253 else decide (n ≤ 252)

/-- Only the control and the event chain carry request slots and state writes (R138, R139). -/
def Chain.isRequest : Chain → Bool
  | .control => true
  | .event => true
  | .capture => false

/-- A STAMP slot's payload is as long as its payload length says; one above 240 is not read (R150, R154). -/
def payloadFits (len : BitVec 16) (payload : List Byte) : Bool :=
  if len.toNat ≤ 240 then payload.length == len.toNat else payload.isEmpty

/-- The offsets of the registers a write reaches, with the widths each accepts (R176, 10.2):
CHAIN_COMMAND, RESET_SCOPE, NOTICE and NOTICE_ENABLE by 32 bits, a chain address register by 64
bits whole and by 32 bits in halves. -/
def RegWrite.reaches (w : RegWrite) : Bool :=
  (w.width == 4 && [0x08, 0x0C, 0x10, 0x14, 0x20, 0x24, 0x28, 0x2C, 0x30, 0x34].contains w.offset)
  || (w.width == 8 && [0x20, 0x28, 0x30].contains w.offset)

/-- A well-formed command. -/
def Instr.wellFormed : Instr → Bool
  | .refFrameEnd data how => how.fits data.length
  | .frameEnd _ data _ how => how.fits data.length
  | .slotHeadRead c _ => c.isRequest
  | .blockStateWriteComplete c => c.isRequest
  | .stamp _ len payload => payloadFits len payload
  | .registerWriteIgnored w => !w.reaches
  | .powerOn | .conventionalReset | .supplyOutOfRange _ | .oscillatorStop | .oscillatorReturn
  | .refSyncGained | .refSyncLost _ | .marker | .missingMarkerExpiry | .actionInstant
  | .holdoverSecond | .linkUp _ | .linkDown _ _ | .frameStart _ | .responseSent _
  | .flowSymbolSent _ | .release | .callOpenTimer _ | .closeWindowTimer _ | .closeTimer _
  | .alarmTimer _ | .attestBoundary | .checkRisingTransition _ | .checkPulseDropped _
  | .checkEdgeRecognized _ | .checkSecondJudged | .flushTimerExpiry | .blockHeaderRead _ _
  | .nextAddressRead _ _ | .setTime _ | .setSteering _ _ _ _ _ | .setTraceLimits _ _ _
  | .openLine _ | .closeLine _ | .setLineParams _ _ _ | .setSequence _ _ | .armGroup _ _ _ _ _ _
  | .disarmGroup _ | .setSeed _ | .setAlarm _ _ _ | .cancelAlarm _ | .setEvidenceParams _ _ _
  | .queryStatus | .setCaptureParams _ _ _ _ _ | .extend _ | .abandon _ | .writeBackComplete
  | .recordPlace | .captureDoneComplete | .dmaReadFailed _ | .dmaReadTimeout _ | .dmaWriteFailed _
  | .start _ | .resume _ | .stop _ | .chainCommandUndefined _ | .chainAddrWrite _ _ _
  | .noticeClear _ | .noticeEnableWrite _ | .vectorUnmasked | .lines | .auctions | .chains
  | .chainsResetEffect | .full | .oscillatorPeriod => true

end Sys2Proof
end

