-- ==== Sys2Proof/Decode.lean ====
section
/-!
DEFINITION. The decoder of opcode-table words. No row of spec/opcode_table.json carries bits (its
"fields" are all empty): the part takes commands, not instruction words, so no word spells one.
-/

namespace Sys2Proof

/-- The command a word spells by the table's bits: none, for the table gives no row any bits. -/
def decodeTableWord (nbits w : Nat) : Option Instr :=
  match nbits, w with
  | _, _ => none

end Sys2Proof
end

