-- ==== Sys2Proof/Machine/State.lean ====
section
/-!
DEFINITION. The state of the part as plain data: every item the chapters give each block (TB, DU,
OL0 to OL3, SQM, ATU, ATT, CHE, PST, PRT), the queue of waiting commands, and the few fields that
are the model's own (named so in INVENTORY.md). Times, counts and bounds are naturals, offsets and
rates integers, registers bit vectors, and everything with named values an inductive type.
-/

namespace Sys2Proof.Machine

open Sys2Proof

/-! ## Times -/

/-- An instant of venue time, without its epoch: seconds and nanoseconds. -/
structure Instant where
  sec : Nat
  ns : Nat
  deriving DecidableEq, Repr

/-- A stamp: epoch, venue seconds, venue nanoseconds (Conventions, "Stamps"). -/
structure Stamp where
  epoch : Nat
  sec : Nat
  ns : Nat
  deriving DecidableEq, Repr

/-- The earliest stamp a merge source can still contribute, or +∞ (R54, R74). -/
inductive Bound
  | upTo (t : Stamp)
  | never
  deriving DecidableEq, Repr

/-! ## Named values (10.1) -/

inductive DState | free | acquiring | locked | suspect | holdover | reacquiring
  deriving DecidableEq, Repr

inductive TraceClass | unsynchronized | traceable | degraded
  deriving DecidableEq, Repr

inductive Leap | none | insert | delete
  deriving DecidableEq, Repr

inductive Quality | primary | secondary | degraded | unusable
  deriving DecidableEq, Repr

/-- The verdict on a reference frame (R27). -/
inductive Verdict | correct | length | crc | format
  deriving DecidableEq, Repr

/-- The cause of a judged second (R31, R37). -/
inductive SecondCause
  | goodConsistent | goodInconsistent | early | missing | lateMarker | noFrame | length | crc
  | format | unusable | lateFrame
  deriving DecidableEq, Repr

/-- The reason a frame is refused (R55). -/
inductive Refuse | closed | length | crc | kind | group | full
  deriving DecidableEq, Repr

inductive GroupPhase | idle | armed | call | closing | closed
  deriving DecidableEq, Repr

inductive PhaseTag | none | opened | call | closing | closed
  deriving DecidableEq, Repr

inductive ChainState | inactive | active | parked | stopping | fault
  deriving DecidableEq, Repr

inductive ParkKind | atEnd | onBlock
  deriving DecidableEq, Repr

inductive FaultCause | align | readError | writeError
  deriving DecidableEq, Repr

inductive CheckFilter | none | ns100 | us1 | us10
  deriving DecidableEq, Repr

/-- The statuses the part writes into a slot (Conventions, R150). -/
inductive SlotStatus | taken | ok | state | range | late | limit | kind | malformed
  deriving DecidableEq, Repr

inductive CloseCause | none | full | flush | push | stop
  deriving DecidableEq, Repr

/-- One symbol of a line as its receiver meets it (R25, R49): an idle, another well-formed symbol, a
malformed one, or the loss of symbol lock or signal. -/
inductive Heard | idle | wellFormed | malformed | lost
  deriving DecidableEq, Repr

/-- What a return transmitter is at (R62): no response (idles, or the flow symbol that is due); an idle
during which a response joined an empty queue, and which may have ended since; the head response. -/
inductive Transmitter | idle | joined | response
  deriving DecidableEq, Repr

/-- The fifteen notice causes, in the order of their bits (10.2). -/
inductive Cause
  | ctlDone | evtDone | capDone | chainParked | chainFault | urgent | disciplineChange
  | traceChange | stepHeld | checkDisagree | pendingHigh | alarm | auctionClose | lineChange
  | resetDone
  deriving DecidableEq, Repr

/-! ## Time base (chapter 1) -/

/-- A step demand that is held (R13, R14): θ and D of its latest servo second. -/
structure Demand where
  theta : Int
  d : Int
  deriving DecidableEq, Repr

/-- TB: the time counter (R1), INC (R4), the epoch (R9), the UTC offset (R21), the held step (R13). -/
structure TB where
  sec : Nat
  ns : Nat
  frac : Nat
  inc : Nat
  epoch : Nat
  utcOffset : Int
  demand : Option Demand
  deriving DecidableEq, Repr

/-- What commands of this period have read of what its work leaves, while that work is still to be done (R2,
R36; log entry 5): nothing, the trace class, now as well, or the values that end an attestation period. -/
inductive Promise | nothing | cls | time | values
  deriving DecidableEq, Repr

/-- The MODEL's measure of own time: the sum of the increments added (R3) in units of 2^-32 ns, the
number of oscillator periods, the counter as the period found it, whether this period's ordinary advance
carried into a second that no check input has judged yet (R134), whether a command of this period has read
now (R2), and what has been read of work still to be done. -/
structure OwnClock where
  own : Nat
  period : Nat
  prev : Instant
  carried : Bool
  read : Bool
  promised : Promise
  deriving DecidableEq, Repr

/-! ## Discipline unit (chapters 1 and 2) -/

/-- The five steering settings (1.3); `never` is the step policy NEVER. -/
structure Steering where
  p : Nat
  k : Nat
  limit : Nat
  threshold : Nat
  never : Bool
  deriving DecidableEq, Repr

/-- The three evidence settings of E (R38). -/
structure TraceLimits where
  divergence : Nat
  floor : Nat
  rate : Nat
  deriving DecidableEq, Repr

/-- The fields of a reference frame that DU uses (R28). -/
structure RefFields where
  seconds : Nat
  utcOffset : Int
  leap : Leap
  quality : Quality
  accuracy : Nat
  source : Nat
  deriving DecidableEq, Repr

/-- The frame latch: the last frame's fields, its verdict, its end in own time (R27). -/
structure FrameLatch where
  fields : RefFields
  verdict : Verdict
  endOwn : Nat
  deriving DecidableEq, Repr

/-- What the reference receiver is inside of (R27). -/
inductive RefReceiver | outside | inFrame | discarding
  deriving DecidableEq, Repr

/-- DU's last-seen values (R28). -/
structure Seen where
  quality : Quality
  accuracy : Nat
  leap : Leap
  source : Nat
  deriving DecidableEq, Repr

/-- A judged second that waits for its action instant (R26): its cause, the marker latch (absent for
MISSING), D and θ (0 for a bad second), the frame's declared accuracy and UTC offset, the expected
marker second and the counts after the second's update, the last-seen values, whether its latched
frame was CORRECT (R46), and the oscillator period of its latch. -/
structure Second where
  cause : SecondCause
  latch : Option Stamp
  d : Int
  theta : Int
  accuracy : Nat
  utcOffset : Int
  expected : Option Nat
  goodRun : Nat
  badRun : Nat
  seen : Seen
  correct : Bool
  period : Nat
  deriving DecidableEq, Repr

/-- DU (R48, R24): the line receiver, the judgement of seconds, the discipline state, the servo's I
and C, the settings, E and the trace class. -/
structure DU where
  inSync : Bool
  wellFormed : Nat
  malformed : Nat
  receiver : RefReceiver
  present : Bool
  refOwn : Option Nat
  missingAt : Option Nat
  latch : Option FrameLatch
  expected : Option Nat
  goodRun : Nat
  badRun : Nat
  seen : Seen
  judged : List Second
  state : DState
  lastOffset : Int
  i : Int
  c : Int
  steering : Steering
  limits : TraceLimits
  e : Nat
  eBase : Nat
  holdCount : Nat
  holdNext : Nat
  cls : TraceClass
  deriving DecidableEq, Repr

/-! ## Order lines (chapter 3) -/

/-- A frame in progress (R53): stamped under OPEN, or marked for refusal with CLOSED. -/
inductive FrameMark
  | stamped (t : Stamp) (cls : TraceClass)
  | closed
  deriving DecidableEq, Repr

/-- An entry of a line FIFO (R59). -/
structure FifoEntry where
  stamp : Stamp
  cls : TraceClass
  kind : Nat
  group : Nat
  tag : Nat
  payload : List Byte
  urgent : Bool
  deriving DecidableEq, Repr

/-- An entry of an ack queue (R61). -/
inductive Response
  | ack (tag : Nat) (seq : Nat) (stamp : Stamp)
  | refuse (tag : Nat) (reason : Refuse)
  deriving DecidableEq, Repr

/-- The eight period counters of a line (R69). -/
structure Counters where
  accepted : Nat
  closed : Nat
  length : Nat
  crc : Nat
  kind : Nat
  group : Nat
  full : Nat
  aborted : Nat
  deriving DecidableEq, Repr

/-- One order line port (R72). `tx`: what the return transmitter is at (R62). -/
structure Line where
  up : Bool
  training : Nat
  malformedRun : Nat
  opened : Bool
  frame : Option FrameMark
  discarding : Bool
  fifo : List FifoEntry
  acks : List Response
  tx : Transmitter
  hold : Bool
  flowDue : Bool
  urgentA : Nat
  urgentB : Nat
  counters : Counters
  deriving DecidableEq, Repr

/-- Four things of one kind, one for each order line. -/
structure Quad (α : Type) where
  l0 : α
  l1 : α
  l2 : α
  l3 : α
  deriving DecidableEq, Repr

/-! ## Records (chapters 4 and 10.5) -/

/-- The eight values of one check input in an ATTEST record, with its settings (10.5). -/
structure CheckEvidence where
  enabled : Bool
  filter : CheckFilter
  limit : Nat
  edges : Nat
  offset : Option Int
  double : Bool
  disagree : Bool
  missing : Nat
  deriving DecidableEq, Repr

/-- θ last, min and max of a period that had a servo second (R126). -/
structure ThetaRange where
  last : Int
  min : Int
  max : Int
  deriving DecidableEq, Repr

/-- The body of an ATTEST record: the snapshot of R126 to R128 and the range of R130. -/
structure Attest where
  stateEnd : DState
  worstState : DState
  clsEnd : TraceClass
  worstCls : TraceClass
  leap : Leap
  quality : Quality
  periodStart : Stamp
  periodEnd : Stamp
  first : Nat
  last : Nat
  theta : Option ThetaRange
  servoSeconds : Nat
  utcOffset : Int
  stepHeld : Bool
  period : Nat
  cEnd : Int
  iEnd : Int
  eMax : Nat
  eEnd : Nat
  accuracy : Nat
  counters : Quad Counters
  chk0 : CheckEvidence
  chk1 : CheckEvidence
  deriving DecidableEq, Repr

/-- The steering part of a CLOCK PARAMS record: old and new settings, I and C after take (R22). -/
structure SteeringPart where
  old : Steering
  new : Steering
  i : Int
  c : Int
  deriving DecidableEq, Repr

/-- The evidence part of a CLOCK PARAMS record: old and new settings, E and class after take (R45). -/
structure EvidencePart where
  old : TraceLimits
  new : TraceLimits
  e : Nat
  cls : TraceClass
  deriving DecidableEq, Repr

/-- The old and new value areas of a CLOCK record, by subkind (10.5). -/
inductive ClockBody
  | state (old new : DState) (cause : SecondCause) (quality : Quality) (source goodRun badRun : Nat)
      (expected : Option Nat)
  | step (old new : Stamp)
  | set (old new : Stamp)
  | offset (old new : Int)
  | trace (old new : TraceClass) (e divergence : Nat)
  | params (steering : Option SteeringPart) (evidence : Option EvidencePart)
  | held (old new : Stamp) (d : Int) (backward : Bool)
  deriving DecidableEq, Repr

/-- The result of an engine EXTEND at its release (R109 to R111). -/
structure ExtendResult where
  status : SlotStatus
  phase : GroupPhase
  used : Nat
  close : Option Stamp
  deriving DecidableEq, Repr

/-- The cause of an ABANDON record (10.1). -/
inductive AbandonCause | engine | set | reset
  deriving DecidableEq, Repr

/-- The body of an ABANDON record (R112, R113, R121). `close` is absent in an engine ABANDON. -/
structure AbandonBody where
  status : SlotStatus
  cause : AbandonCause
  phase : GroupPhase
  used : Nat
  callCount : Nat
  close : Option Stamp
  drawn : Option Stamp
  deriving DecidableEq, Repr

/-- The body of a SCHEDULE record; absent times are those of cause DISARM (R98, R100). -/
structure ScheduleBody where
  disarm : Bool
  phase : GroupPhase
  m : Nat
  w : Nat
  x : Nat
  requested : Option Stamp
  effective : Option Stamp
  close : Option Stamp
  deriving DecidableEq, Repr

/-- The body of a record, by kind (10.5). `draw` of a WINDOW and `last` of a CLOSE are filled at release. -/
inductive Body
  | order (kind : Nat) (payload : List Byte)
  | engine (payload : List Byte)
  | extend (r : ExtendResult)
  | abandon (a : AbandonBody)
  | schedule (b : ScheduleBody)
  | phase (lateOpen : Bool)
  | window (g offsetMs : Nat) (drawn : Option Stamp)
  | close (drawn : Stamp) (callCount used last : Nat)
  | alarm (index : Nat) (missed : Nat)
  | attest (a : Attest)
  | clock (theta : Int) (marker : Option Stamp) (c : ClockBody)
  | discard (first last : Nat)
  | run (id first : Nat)
  deriving DecidableEq, Repr

/-- A record waiting in the internal agenda: without number and phase tag, with its count and its
creation order (R86). -/
structure Internal where
  stamp : Stamp
  cls : TraceClass
  group : Nat
  late : Bool
  steppedOver : Bool
  coalesced : Bool
  count : Nat
  order : Nat
  body : Body
  deriving DecidableEq, Repr

/-- A released record as PST holds it (R82, R160). -/
structure Record where
  body : Body
  source : Nat
  cls : TraceClass
  tag : PhaseTag
  group : Nat
  urgent : Bool
  late : Bool
  steppedOver : Bool
  coalesced : Bool
  count : Nat
  seq : Nat
  stamp : Stamp
  hostTag : Nat
  deriving DecidableEq, Repr

/-! ## Sequencing merge (chapter 4) -/

/-- SQM (R92): the sequence counter, the run, the tie pointer, the internal agenda, and the count of
entries created, which gives each its creation order. -/
structure SQM where
  next : Nat
  run : Nat
  first : Nat
  exhausted : Bool
  tie : Nat
  agenda : List Internal
  created : Nat
  deriving DecidableEq, Repr

/-! ## Auction timer unit (chapter 5) -/

/-- A group entry (R93). -/
structure Group where
  phase : GroupPhase
  callOpen : Instant
  close : Instant
  w : Nat
  x : Nat
  m : Nat
  used : Nat
  drawn : Option Stamp
  callCount : Nat
  callTimer : Bool
  windowTimer : Bool
  closeTimer : Bool
  abandonPending : Bool
  passedOver : Option Stamp
  deriving DecidableEq, Repr

/-- A present alarm (R116): its period in ms (0 for a one-shot), its next instant, its LATE mark. -/
structure Alarm where
  period : Nat
  next : Instant
  late : Bool
  deriving DecidableEq, Repr

/-- ATU (R122). -/
structure ATU where
  groups : Vector Group 64
  alarms : Vector (Option Alarm) 8
  generator : BitVec 32
  deriving DecidableEq, Repr

/-! ## Attestation unit (chapter 6) -/

/-- A pulse under filtering: its provisional latch, its rise in own time and the filter in force
then (R132). -/
structure Pulse where
  stamp : Stamp
  riseOwn : Nat
  filter : CheckFilter
  deriving DecidableEq, Repr

/-- A check input (R132 to R134). -/
structure Check where
  enabled : Bool
  filter : CheckFilter
  limit : Nat
  pulse : Option Pulse
  latch : Option Stamp
  edges : Nat
  offset : Option Int
  double : Bool
  disagree : Bool
  missing : Nat
  watched : Bool
  lastEpoch : Option Nat
  lastSec : Nat
  deriving DecidableEq, Repr

/-- ATT (R137): the period, its accumulators (R126, R127), the carried line counts (R128), the range
start (R130) and the check inputs. -/
structure ATT where
  period : Nat
  periodStart : Stamp
  nextBoundary : Nat
  worstState : DState
  servoSeconds : Nat
  theta : Option ThetaRange
  eMax : Nat
  worstCls : TraceClass
  stepHeld : Bool
  leap : Leap
  quality : Quality
  accuracy : Nat
  carried : Quad Counters
  rangeStart : Option Nat
  chk0 : Check
  chk1 : Check
  deriving DecidableEq, Repr

/-! ## Chain engine (chapters 7 and 8) -/

/-- Where a chain's walk stands: the host read it waits for, the slot it is at, the slot after whose
answer a STOP is carried out (R143), or the final write that ends its stay in a block (with the next
address of a bad block, R138). -/
inductive Walk
  | none
  | header
  | slotHead (offset : Nat)
  | slot (offset : Nat) (head : SlotHead)
  | lastSlot (offset : Nat) (head : SlotHead)
  | finishing (next : Option (BitVec 64))
  | next
  deriving DecidableEq, Repr

/-- A chain context (R140). -/
structure ChainCtx where
  state : ChainState
  start : BitVec 64
  current : BitVec 64
  park : Option ParkKind
  remembered : Bool
  fault : Option FaultCause
  ignored : Bool
  walk : Walk
  deriving DecidableEq, Repr

/-- The block the control chain is working in (R138, R139). -/
structure CtlBlock where
  used : Nat
  notify : Bool
  count : Nat
  deriving DecidableEq, Repr

structure CTL where
  ctx : ChainCtx
  block : CtlBlock
  deriving DecidableEq, Repr

/-- The three kinds of event slot (10.4). -/
inductive EngineKind | stamp | extend | abandon
  deriving DecidableEq, Repr

/-- An entry of the engine FIFO (R154). -/
structure EngineEntry where
  stamp : Stamp
  cls : TraceClass
  kind : EngineKind
  group : Nat
  tag : BitVec 32
  payload : List Byte
  block : BitVec 64
  offset : Nat
  writeBack : Bool
  deriving DecidableEq, Repr

/-- An event block in flight (R157). `unfinished`: a slot read failed in it (R147). -/
structure EvtBlock where
  addr : BitVec 64
  notify : Bool
  used : Nat
  outstanding : Nat
  left : Bool
  count : Nat
  low : Option Nat
  high : Option Nat
  bad : Bool
  unfinished : Bool
  deriving DecidableEq, Repr

/-- A write-back under way: the block of its slot and the number written (R156). -/
structure WriteBack where
  block : BitVec 64
  seq : Nat
  deriving DecidableEq, Repr

structure EVT where
  ctx : ChainCtx
  fifo : List EngineEntry
  blocks : List EvtBlock
  writeBacks : List WriteBack
  deriving DecidableEq, Repr

/-- The DONE write of a capture block under way (R168), with its NOTIFY flag. -/
structure CapClose where
  notify : Bool
  deriving DecidableEq, Repr

structure CAP where
  ctx : ChainCtx
  closing : Option CapClose
  deriving DecidableEq, Repr

/-! ## Pending store (chapter 8) -/

/-- The open capture block context (R163, R166). -/
structure OpenBlock where
  addr : BitVec 64
  capacity : Nat
  notify : Bool
  used : Nat
  count : Nat
  first : Nat
  last : Nat
  deriving DecidableEq, Repr

/-- The capture settings (R172); the push set has bit k for record kind k. -/
structure CaptureParams where
  flush : Nat
  high : Nat
  low : Nat
  push : BitVec 16
  notifyAll : Bool
  deriving DecidableEq, Repr

/-- PST (R175). `flushAt`: the running flush timer's expiry in own time. -/
structure PST where
  records : List Record
  placed : Nat
  block : Option OpenBlock
  flushAt : Option Nat
  params : CaptureParams
  deriving DecidableEq, Repr

/-! ## Port (chapter 9) -/

/-- How far a CHAINS scope is (R186): not in progress, waiting for an issued DONE write, or waiting
for its DISCARD record's release. -/
inductive ChainsScope | idle | waitDone | waitDiscard
  deriving DecidableEq, Repr

/-- How far an AUCTIONS scope is (R186): not in progress, waiting for the oscillator with its effect,
which stamps records (R190), or waiting for the release of its ABANDON records. -/
inductive AuctionsScope | idle | held | waitAbandon
  deriving DecidableEq, Repr

/-- PRT (R189): NOTICE, NOTICE_ENABLE and the scopes in progress. -/
structure PRT where
  notice : BitVec 15
  enable : BitVec 15
  chains : ChainsScope
  auctions : AuctionsScope
  deriving DecidableEq, Repr

/-- The PCIe endpoint: its link, whether the host has configured it (R188), and the four configuration
settings R182 names. -/
structure Endpoint where
  linkUp : Bool
  configured : Bool
  busMaster : Bool
  msi : Bool
  masked : Bool
  vectorPending : Bool
  deriving DecidableEq, Repr

/-- What the completion of a host write brings about: nothing, the end of a write-back (R156), of a
request block's final state write (R139; `leave`: the walk waits for it to leave the block), or of
a capture block's DONE write (R168). -/
inductive WriteEnd
  | plain
  | writeBack
  | final (notify leave : Bool)
  | captureDone
  deriving DecidableEq, Repr

/-- A host memory write issued by CHE and not yet known to be sent (R182). -/
structure HostWrite where
  chain : Chain
  block : BitVec 64
  addr : Nat
  bytes : List Byte
  ends : WriteEnd
  deriving DecidableEq, Repr

/-- What the part has put on a connection: a host write sent, a response or a flow symbol on a
return direction, an interrupt message. -/
inductive Output
  | hostWrite (addr : Nat) (bytes : List Byte)
  | response (line : Fin 4) (bytes : List Byte)
  | flow (line : Fin 4) (hold : Bool)
  | interrupt
  deriving DecidableEq, Repr

/-! ## The machine -/

/-- The whole part, with the queue of waiting commands. MODEL fields: `clock`, `posted` and `wire`
(the accesses in flight and what has been sent), `draws` (how many free values were drawn),
`pending` (the queue), `rail33`, `rail09` and `osc` (the supplies and the oscillator outside). -/
structure State where
  rail33 : Bool
  rail09 : Bool
  osc : Bool
  clock : OwnClock
  tb : TB
  du : DU
  lines : Quad Line
  sqm : SQM
  atu : ATU
  att : ATT
  ctl : CTL
  evt : EVT
  cap : CAP
  pst : PST
  prt : PRT
  ep : Endpoint
  posted : List HostWrite
  wire : List Output
  draws : Nat
  pending : List Instr
  deriving DecidableEq, Repr

/-- No command of this part faults: R-rules turn every error into a state (a chain's FAULT state,
a status, a notice), so there is no reason to stop the machine. -/
inductive Fault
  deriving DecidableEq, Repr

/-- The one reason to refuse a command. -/
inductive Refusal
  /-- Raised by `exec` for a command without a meaning; safe. No arm raises it. -/
  | notModelled (mnemonic : String)
  deriving DecidableEq, Repr

/-! ## Values after power-on -/

/-- TB after power-on (R24). -/
def TB.powerOn : TB :=
  { sec := 0, ns := 0, frac := 0, inc := Config.nominalInc, epoch := 0, utcOffset := 0, demand := none }

/-- DU after power-on (R48, R24). -/
def DU.powerOn : DU :=
  { inSync := false, wellFormed := 0, malformed := 0, receiver := .outside, present := false,
    refOwn := none, missingAt := none, latch := none, expected := none, goodRun := 0, badRun := 0,
    seen := { quality := .unusable, accuracy := 0, leap := .none, source := 0 }, judged := [],
    state := .free, lastOffset := 0, i := 0, c := 0,
    steering := { p := 1, k := 4, limit := 100000, threshold := 50000, never := false },
    limits := { divergence := 100000, floor := 50, rate := 100 },
    e := Config.errorMax, eBase := 0, holdCount := 0, holdNext := 0, cls := .unsynchronized }

def Counters.zero : Counters :=
  { accepted := 0, closed := 0, length := 0, crc := 0, kind := 0, group := 0, full := 0, aborted := 0 }

/-- A line port after power-on (R72). -/
def Line.powerOn : Line :=
  { up := false, training := 0, malformedRun := 0, opened := false, frame := none, discarding := false,
    fifo := [], acks := [], tx := .idle, hold := false, flowDue := false, urgentA := 0,
    urgentB := 0, counters := Counters.zero }

/-- The same thing four times. -/
def Quad.all {α : Type} (a : α) : Quad α := { l0 := a, l1 := a, l2 := a, l3 := a }

/-- SQM after power-on (R92). -/
def SQM.powerOn : SQM :=
  { next := 1, run := 0, first := 1, exhausted := false, tie := 0, agenda := [], created := 0 }

/-- A group entry after power-on (R93). -/
def Group.powerOn : Group :=
  { phase := .idle, callOpen := ⟨0, 0⟩, close := ⟨0, 0⟩, w := 0, x := 0, m := 0, used := 0,
    drawn := none, callCount := 0, callTimer := false, windowTimer := false, closeTimer := false,
    abandonPending := false, passedOver := none }

/-- ATU after power-on (R122). -/
def ATU.powerOn : ATU :=
  { groups := Vector.replicate 64 Group.powerOn, alarms := Vector.replicate 8 none, generator := 1#32 }

/-- A check input after power-on (R137). -/
def Check.powerOn : Check :=
  { enabled := false, filter := .none, limit := 1000, pulse := none, latch := none, edges := 0,
    offset := none, double := false, disagree := false, missing := 0, watched := false,
    lastEpoch := none, lastSec := 0 }

/-- ATT after power-on (R123, R137). -/
def ATT.powerOn : ATT :=
  { period := 1, periodStart := ⟨0, 0, 0⟩, nextBoundary := 1, worstState := .free, servoSeconds := 0,
    theta := none, eMax := Config.errorMax, worstCls := .unsynchronized, stepHeld := false,
    leap := .none, quality := .unusable, accuracy := 0, carried := Quad.all Counters.zero,
    rangeStart := none, chk0 := Check.powerOn, chk1 := Check.powerOn }

/-- A chain context after power-on (R140, R159, R175). -/
def ChainCtx.powerOn : ChainCtx :=
  { state := .inactive, start := 0#64, current := 0#64, park := none, remembered := false,
    fault := none, ignored := false, walk := .none }

def CTL.powerOn : CTL :=
  { ctx := ChainCtx.powerOn, block := { used := 0, notify := false, count := 0 } }

def EVT.powerOn : EVT :=
  { ctx := ChainCtx.powerOn, fifo := [], blocks := [], writeBacks := [] }

def CAP.powerOn : CAP := { ctx := ChainCtx.powerOn, closing := none }

/-- PST after power-on (R172, R175): bit 8 of the push set is CLOSE. -/
def PST.powerOn : PST :=
  { records := [], placed := 0, block := none, flushAt := none,
    params := { flush := 50000, high := 768, low := 512, push := 0x0100#16, notifyAll := false } }

/-- PRT after power-on (R183, R184, R185). -/
def PRT.powerOn : PRT := { notice := 0#15, enable := 0#15, chains := .idle, auctions := .idle }

/-- The endpoint after power-on (R182), not configured yet (R188). The rules give no reset value for the
link: taken as up (DESIGN CHOICE, log entry 6). -/
def Endpoint.powerOn : Endpoint :=
  { linkUp := true, configured := false, busMaster := false, msi := false, masked := false, vectorPending := false }

/-- The part right after power-on, its supplies in range and its oscillator running, with no command
waiting. -/
def State.reset : State :=
  { rail33 := true, rail09 := true, osc := true,
    clock := { own := 0, period := 0, prev := ⟨0, 0⟩, carried := false, read := false, promised := .nothing },
    tb := TB.powerOn, du := DU.powerOn, lines := Quad.all Line.powerOn, sqm := SQM.powerOn,
    atu := ATU.powerOn, att := ATT.powerOn, ctl := CTL.powerOn, evt := EVT.powerOn,
    cap := CAP.powerOn, pst := PST.powerOn, prt := PRT.powerOn, ep := Endpoint.powerOn,
    posted := [], wire := [], draws := 0, pending := [] }

/-! ## Lines and groups by index -/

/-- The thing of line `l`. -/
def Quad.get {α : Type} (q : Quad α) (l : Fin 4) : α :=
  match l with
  | 0 => q.l0
  | 1 => q.l1
  | 2 => q.l2
  | 3 => q.l3

/-- The thing of line `l` replaced. -/
def Quad.set {α : Type} (q : Quad α) (l : Fin 4) (a : α) : Quad α :=
  match l with
  | 0 => { q with l0 := a }
  | 1 => { q with l1 := a }
  | 2 => { q with l2 := a }
  | 3 => { q with l3 := a }

/-- A function applied to all four. -/
def Quad.map {α β : Type} (f : α → β) (q : Quad α) : Quad β :=
  { l0 := f q.l0, l1 := f q.l1, l2 := f q.l2, l3 := f q.l3 }

/-- A function of two things applied line by line. -/
def Quad.zip {α β γ : Type} (f : α → β → γ) (p : Quad α) (q : Quad β) : Quad γ :=
  { l0 := f p.l0 q.l0, l1 := f p.l1 q.l1, l2 := f p.l2 q.l2, l3 := f p.l3 q.l3 }

/-- Whether all four pass a test. -/
def Quad.allB {α : Type} (f : α → Bool) (q : Quad α) : Bool := f q.l0 && f q.l1 && f q.l2 && f q.l3

/-- Whether the part is out of power-on: both rails are in range (R188). -/
def State.powered (s : State) : Bool := s.rail33 && s.rail09

/-- Line `l`. -/
def State.line (s : State) (l : Fin 4) : Line := s.lines.get l

/-- Line `l` replaced. -/
def State.setLine (s : State) (l : Fin 4) (x : Line) : State := { s with lines := s.lines.set l x }

/-- Group `g`. -/
def State.group (s : State) (g : Fin 64) : Group := s.atu.groups.get g

/-- Group `g` replaced. -/
def State.setGroup (s : State) (g : Fin 64) (x : Group) : State :=
  { s with atu := { s.atu with groups := s.atu.groups.set g x } }

/-- Alarm `a`. -/
def State.alarm (s : State) (a : Fin 8) : Option Alarm := s.atu.alarms.get a

/-- Alarm `a` replaced. -/
def State.setAlarm (s : State) (a : Fin 8) (x : Option Alarm) : State :=
  { s with atu := { s.atu with alarms := s.atu.alarms.set a x } }

/-- Check input `k`. -/
def State.check (s : State) (k : CheckInput) : Check :=
  match k with
  | .chk0 => s.att.chk0
  | .chk1 => s.att.chk1

/-- Check input `k` replaced. -/
def State.setCheck (s : State) (k : CheckInput) (x : Check) : State :=
  match k with
  | .chk0 => { s with att := { s.att with chk0 := x } }
  | .chk1 => { s with att := { s.att with chk1 := x } }

/-- The context of chain `c`. -/
def State.ctx (s : State) (c : Chain) : ChainCtx :=
  match c with
  | .control => s.ctl.ctx
  | .event => s.evt.ctx
  | .capture => s.cap.ctx

/-- The context of chain `c` replaced. -/
def State.setCtx (s : State) (c : Chain) (x : ChainCtx) : State :=
  match c with
  | .control => { s with ctl := { s.ctl with ctx := x } }
  | .event => { s with evt := { s.evt with ctx := x } }
  | .capture => { s with cap := { s.cap with ctx := x } }

end Sys2Proof.Machine
end

