-- ==== Sys2Proof/Machine/Time.lean ====
section
/-!
DEFINITION. Arithmetic of the conventions: rounding, clamping and saturation, comparison of instants
and stamps, instants moved by a span, and whether an advance of the counter reaches an instant.
-/

namespace Sys2Proof.Machine

open Sys2Proof

/-- n / d rounded to the nearest integer, halves away from zero (Conventions, "Rounding"). -/
def roundDiv (n : Int) (d : Nat) : Int :=
  let q : Nat := (2 * n.natAbs + d) / (2 * d)
  if n < 0 then -(q : Int) else (q : Int)

/-- v limited to the range −L to +L (Conventions, "clamp"). -/
def clamp (v : Int) (l : Nat) : Int :=
  if v > (l : Int) then (l : Int) else if v < -(l : Int) then -(l : Int) else v

/-- a + b held at n rather than exceeding it (Conventions, "Saturates at N"). -/
def satAdd (n a b : Nat) : Nat := min n (a + b)

/-- INC for the rate correction C (R4). -/
def incOf (c : Int) : Nat :=
  ((Config.nominalInc : Int) + roundDiv (c * (Config.nominalInc : Int)) Config.second).toNat

/-! ## Instants and stamps -/

def Instant.blt (a b : Instant) : Bool := a.sec < b.sec || (a.sec == b.sec && a.ns < b.ns)

def Instant.ble (a b : Instant) : Bool := a.sec < b.sec || (a.sec == b.sec && a.ns ≤ b.ns)

/-- Stamps compare by epoch, then seconds, then nanoseconds (Conventions, "Stamps"). -/
def Stamp.blt (a b : Stamp) : Bool :=
  a.epoch < b.epoch
    || (a.epoch == b.epoch && (a.sec < b.sec || (a.sec == b.sec && a.ns < b.ns)))

def Stamp.ble (a b : Stamp) : Bool :=
  a.epoch < b.epoch
    || (a.epoch == b.epoch && (a.sec < b.sec || (a.sec == b.sec && a.ns ≤ b.ns)))

/-- The bound `b` is later than `t` (R54: +∞ is later than every stamp). -/
def Bound.laterThan (b : Bound) (t : Stamp) : Bool :=
  match b with
  | .upTo u => t.blt u
  | .never => true

/-- The stamp of an instant in an epoch. -/
def Instant.at (i : Instant) (epoch : Nat) : Stamp := ⟨epoch, i.sec, i.ns⟩

/-- The instant of a stamp. -/
def Stamp.instant (t : Stamp) : Instant := ⟨t.sec, t.ns⟩

/-- The instant of a host time (R193: its epoch bits are ignored). -/
def hostInstant (t : HostTime) : Instant := ⟨t.sec.toNat, t.ns.toNat⟩

/-- The nanoseconds from 0 s to an instant. -/
def Instant.total (i : Instant) : Nat := i.sec * Config.second + i.ns

/-- The instant a number of nanoseconds after 0 s, on the counter that wraps at 2^48 s (R1). -/
def Instant.ofTotal (n : Int) : Instant :=
  let k := (n % ((Config.secondsWrap * Config.second : Nat) : Int)).toNat
  ⟨k / Config.second, k % Config.second⟩

/-- The instant moved by a span of nanoseconds, seconds carried (R106, R109, R119). -/
def Instant.add (i : Instant) (ns : Nat) : Instant := Instant.ofTotal ((i.total : Int) + (ns : Int))

/-- The instant moved back by a signed span: the pre-step time minus D (R12, R17). -/
def Instant.minus (i : Instant) (d : Int) : Instant := Instant.ofTotal ((i.total : Int) - d)

/-- A counter that goes from `pre` to `post`, wrapping if `post` is below `pre`, reaches or passes
`t`: `t` lies after `pre` and at or before `post` (R96, R114, R123). -/
def Instant.crossed (pre post t : Instant) : Bool :=
  if pre.ble post then pre.blt t && t.ble post else pre.blt t || t.ble post

/-- Milliseconds as nanoseconds (R106, R119). -/
def msToNs (ms : Nat) : Nat := ms * 1000000

/-- An interval on own time, in ns with the fraction dropped (R3). -/
def ownSpan (since now : Nat) : Nat := (now - since) / Config.unit

/-- A span of ns in the units of own time. -/
def ownUnits (ns : Nat) : Nat := ns * Config.unit

/-- The first attestation boundary later than an instant, in seconds; 0 past the last second (R123,
R131, R135). -/
def boundaryAfter (now : Instant) (period : Nat) : Nat :=
  let b := (now.sec / period + 1) * period
  if b ≥ Config.secondsWrap then 0 else b

/-! ## The state's own times -/

/-- The counter's seconds and nanoseconds, the fraction dropped (R2). -/
def State.instant (s : State) : Instant := ⟨s.tb.sec, s.tb.ns⟩

/-- Now, in the epoch then current (R2). -/
def State.now (s : State) : Stamp := ⟨s.tb.epoch, s.tb.sec, s.tb.ns⟩

/-- One addition of INC to the counter, with its carry into seconds and their wrap (R1). -/
def TB.advance (t : TB) : TB :=
  let q := t.ns * Config.unit + t.frac + t.inc
  let ns := q / Config.unit
  let frac := q % Config.unit
  if ns ≥ Config.second then
    { t with ns := ns - Config.second, frac := frac,
             sec := if t.sec + 1 ≥ Config.secondsWrap then 0 else t.sec + 1 }
  else { t with ns := ns, frac := frac }

/-- Whether the next addition carries into seconds (R1, R134). -/
def TB.carries (t : TB) : Bool :=
  decide ((t.ns * Config.unit + t.frac + t.inc) / Config.unit ≥ Config.second)

end Sys2Proof.Machine
end

