-- ==== Sys2Proof/Machine/Bytes.lean ====
section
/-!
DEFINITION. Byte order, padding, the codes of 10.1 and the two CRCs.
-/

namespace Sys2Proof.Machine

open Sys2Proof

/-! ## Byte order -/

/-- The n lowest bytes of a number, least significant first (host memory). -/
def leBytes : Nat → Nat → List Byte
  | 0, _ => []
  | n + 1, v => BitVec.ofNat 8 v :: leBytes n (v / 256)

/-- The n lowest bytes of a number, most significant first (the lines). -/
def beBytes (n v : Nat) : List Byte := (leBytes n v).reverse

/-- A signed number in two's complement (10. Layouts, "signed"). -/
def leSigned (n : Nat) (v : Int) : List Byte := leBytes n (v % ((256 ^ n : Nat) : Int)).toNat

/-- A number from bytes, most significant first. -/
def ofBe (bytes : List Byte) : Nat := bytes.foldl (fun acc b => acc * 256 + b.toNat) 0

/-- A number from bytes, least significant first. -/
def ofLe (bytes : List Byte) : Nat := ofBe bytes.reverse

/-- Padding. -/
def pad (n : Nat) : List Byte := List.replicate n 0#8

/-- One byte. -/
def u8 (v : Nat) : List Byte := [BitVec.ofNat 8 v]

/-- A yes-or-no byte as the part writes it: yes is 1 (log entry 39). -/
def flag (b : Bool) : List Byte := [if b then 1#8 else 0#8]

/-- A length rounded up to a multiple of 8. -/
def roundUp8 (n : Nat) : Nat := (n + 7) / 8 * 8

/-- `n` bytes of `l` from offset `off`. -/
def slice (l : List Byte) (off n : Nat) : List Byte := (l.drop off).take n

/-- The byte of `l` at offset `off` as a number, 0 past its end. -/
def byteAt (l : List Byte) (off : Nat) : Nat := (l.getD off 0#8).toNat

/-- A 16-bit field read as signed. -/
def signed16 (v : Nat) : Int := (BitVec.ofNat 16 v).toInt

/-! ## Times in host memory -/

/-- A time word: seconds in bits 47:0, the epoch in bits 63:48. -/
def timeWord (t : Stamp) : List Byte := leBytes 6 t.sec ++ leBytes 2 t.epoch

/-- A time: a time word and a 4-byte nanoseconds field, 12 bytes. -/
def time12 (t : Stamp) : List Byte := timeWord t ++ leBytes 4 t.ns

/-- A time in a 16-byte place. -/
def time16 (t : Stamp) : List Byte := time12 t ++ pad 4

/-- A time that may be absent, written as 0 (R193, R194). -/
def time12? (t : Option Stamp) : List Byte :=
  match t with
  | some t => time12 t
  | none => pad 12

def time16? (t : Option Stamp) : List Byte := time12? t ++ pad 4

/-! ## Codes (10.1) -/

def DState.code : DState → Nat
  | .free => 0 | .acquiring => 1 | .locked => 2 | .suspect => 3 | .holdover => 4 | .reacquiring => 5

def TraceClass.code : TraceClass → Nat
  | .unsynchronized => 0 | .traceable => 1 | .degraded => 2

def GroupPhase.code : GroupPhase → Nat
  | .idle => 0 | .armed => 1 | .call => 2 | .closing => 3 | .closed => 4

def PhaseTag.code : PhaseTag → Nat
  | .none => 0 | .opened => 1 | .call => 2 | .closing => 3 | .closed => 4

def ChainState.code : ChainState → Nat
  | .inactive => 0 | .active => 1 | .parked => 2 | .stopping => 3 | .fault => 4

def ParkKind.code : ParkKind → Nat
  | .atEnd => 1 | .onBlock => 2

def FaultCause.code : FaultCause → Nat
  | .align => 1 | .readError => 2 | .writeError => 3

def CheckFilter.code : CheckFilter → Nat
  | .none => 0 | .ns100 => 1 | .us1 => 2 | .us10 => 3

def CheckFilter.ofCode (n : Nat) : Option CheckFilter :=
  match n with
  | 0 => some .none | 1 => some .ns100 | 2 => some .us1 | 3 => some .us10 | _ => Option.none

/-- The filter's length in ns (R132). -/
def CheckFilter.span : CheckFilter → Nat
  | .none => 0 | .ns100 => 100 | .us1 => 1000 | .us10 => 10000

def Leap.code : Leap → Nat
  | .none => 0 | .insert => 1 | .delete => 2

def Leap.ofCode (n : Nat) : Option Leap :=
  match n with
  | 0 => some .none | 1 => some .insert | 2 => some .delete | _ => Option.none

def Quality.code : Quality → Nat
  | .primary => 0 | .secondary => 1 | .degraded => 2 | .unusable => 3

def Quality.ofCode (n : Nat) : Option Quality :=
  match n with
  | 0 => some .primary | 1 => some .secondary | 2 => some .degraded | 3 => some .unusable | _ => none

def Refuse.code : Refuse → Nat
  | .closed => 1 | .length => 2 | .crc => 3 | .kind => 4 | .group => 5 | .full => 6

def SecondCause.code : SecondCause → Nat
  | .goodConsistent => 0 | .goodInconsistent => 1 | .early => 2 | .missing => 3 | .lateMarker => 4
  | .noFrame => 5 | .length => 6 | .crc => 7 | .format => 8 | .unusable => 9 | .lateFrame => 10

def SlotStatus.code : SlotStatus → Nat
  | .taken => 1 | .ok => 2 | .state => 3 | .range => 4 | .late => 5 | .limit => 6 | .kind => 7
  | .malformed => 8

def CloseCause.code : CloseCause → Nat
  | .none => 0 | .full => 1 | .flush => 2 | .push => 3 | .stop => 4

def AbandonCause.code : AbandonCause → Nat
  | .engine => 0 | .set => 1 | .reset => 2

def ClockBody.code : ClockBody → Nat
  | .state .. => 1 | .step .. => 2 | .set .. => 3 | .offset .. => 4 | .trace .. => 5 | .params .. => 6
  | .held .. => 7

/-- The record kind (10.1). -/
def Body.code : Body → Nat
  | .order .. => 1 | .engine .. => 2 | .extend .. => 3 | .abandon .. => 4 | .schedule .. => 5
  | .phase .. => 6 | .window .. => 7 | .close .. => 8 | .alarm .. => 9 | .attest .. => 10
  | .clock .. => 11 | .discard .. => 12 | .run .. => 13

/-- The bit of a notice cause (10.2). -/
def Cause.bit : Cause → Nat
  | .ctlDone => 0 | .evtDone => 1 | .capDone => 2 | .chainParked => 3 | .chainFault => 4
  | .urgent => 5 | .disciplineChange => 6 | .traceChange => 7 | .stepHeld => 8
  | .checkDisagree => 9 | .pendingHigh => 10 | .alarm => 11 | .auctionClose => 12
  | .lineChange => 13 | .resetDone => 14

/-- Block states the part writes or tests (10.1). -/
abbrev blockLoaded : Nat := 1
abbrev blockTaken : Nat := 2
abbrev blockDone : Nat := 3
abbrev blockPartial : Nat := 4

/-! ## The CRCs -/

/-- One bit of the CRC-16 with polynomial 0x1021, most significant bit first (R27). -/
def crc16Bit (c : BitVec 16) : BitVec 16 := if c.msb then (c <<< 1) ^^^ 0x1021#16 else c <<< 1

/-- n applications of a function. -/
def times {α : Type} (f : α → α) : Nat → α → α
  | 0, a => a
  | n + 1, a => times f n (f a)

/-- The CRC-16 of the reference frame (R27): initial value 0xFFFF, no reflection, no inversion. -/
def crc16 (bytes : List Byte) : BitVec 16 :=
  bytes.foldl (fun c b => times crc16Bit 8 (c ^^^ ((b.setWidth 16 : BitVec 16) <<< (8 : Nat)))) 0xFFFF#16

/-- One bit of the reflected CRC-32 with polynomial 0x04C11DB7 (R57). -/
def crc32Bit (c : BitVec 32) : BitVec 32 :=
  if c.getLsbD 0 then (c >>> 1) ^^^ 0xEDB88320#32 else c >>> 1

/-- The CRC-32 of the order frame (R57): reflected input and result, initial value and final
inversion 0xFFFFFFFF. -/
def crc32 (bytes : List Byte) : BitVec 32 :=
  bytes.foldl (fun c b => times crc32Bit 8 (c ^^^ b.setWidth 32)) 0xFFFFFFFF#32 ^^^ 0xFFFFFFFF#32

end Sys2Proof.Machine
end

