-- ==== Sys2Proof/Machine/Layouts.lean ====
section
/-!
DEFINITION. The byte layouts the host and the line partners see (chapter 10): records, responses,
block header writes, and the fields of reference and order frames.
-/

namespace Sys2Proof.Machine

open Sys2Proof

/-! ## Records (10.5) -/

def steeringBytes (x : Steering) : List Byte :=
  u8 x.p ++ u8 x.k ++ flag x.never ++ pad 1 ++ leBytes 4 x.limit ++ leBytes 4 x.threshold

def limitsBytes (x : TraceLimits) : List Byte :=
  leBytes 4 x.divergence ++ leBytes 4 x.floor ++ leBytes 4 x.rate

/-- The D field of CLOCK HELD, 8 bytes; a D that does not fit is a free value (log entry 16). -/
def heldDBytes (d : Int) : List Byte :=
  if -(2 ^ 63 : Int) ≤ d ∧ d < 2 ^ 63 then leSigned 8 d else leBytes 8 (Config.heldDTooWide d).toNat

/-- The old value area of a CLOCK record, before its padding to 24 bytes. -/
def ClockBody.oldArea : ClockBody → List Byte
  | .state old .. => u8 old.code
  | .step old _ => time12 old
  | .set old _ => time12 old
  | .held old .. => time12 old
  | .offset old _ => leSigned 2 old
  | .trace old .. => u8 old.code
  | .params s e =>
    (match s with | some s => steeringBytes s.old | none => pad 12)
      ++ (match e with | some e => limitsBytes e.old | none => pad 12)

/-- The new value area of a CLOCK record, before its padding to 40 bytes. -/
def ClockBody.newArea : ClockBody → List Byte
  | .state _ new cause quality source good bad expected =>
    u8 new.code ++ u8 cause.code ++ u8 quality.code ++ pad 1 ++ leBytes 2 source ++ leBytes 2 good
      ++ leBytes 2 bad ++ pad 6 ++ leBytes 8 (expected.getD 0)
  | .step _ new => time12 new
  | .set _ new => time12 new
  | .held _ new d backward => time12 new ++ pad 4 ++ heldDBytes d ++ flag backward
  | .offset _ new => leSigned 2 new
  | .trace _ new e divergence => u8 new.code ++ pad 3 ++ leBytes 4 e ++ leBytes 4 divergence
  | .params s e =>
    (match s with | some s => steeringBytes s.new | none => pad 12)
      ++ (match e with | some e => limitsBytes e.new | none => pad 12)
      ++ (match s with | some s => leSigned 4 s.i ++ leSigned 4 s.c | none => pad 8)
      ++ (match e with | some e => leBytes 4 e.e ++ u8 e.cls.code | none => pad 5)
      ++ u8 ((if s.isSome then 1 else 0) + (if e.isSome then 2 else 0))

/-- Bytes padded with zeros to a length. -/
def padTo (n : Nat) (bytes : List Byte) : List Byte := bytes ++ pad (n - bytes.length)

def Counters.bytes (c : Counters) : List Byte :=
  leBytes 4 c.accepted ++ leBytes 4 c.closed ++ leBytes 4 c.length ++ leBytes 4 c.crc
    ++ leBytes 4 c.kind ++ leBytes 4 c.group ++ leBytes 4 c.full ++ leBytes 4 c.aborted

/-- The flags byte of a check input: DOUBLE, DISAGREE, offset present. -/
def checkFlags (double disagree present : Bool) : Nat :=
  (if double then 1 else 0) + (if disagree then 2 else 0) + (if present then 4 else 0)

def CheckEvidence.bytes (k : CheckEvidence) : List Byte :=
  u8 ((if k.enabled then 128 else 0) + k.filter.code) ++ u8 k.edges
    ++ u8 (checkFlags k.double k.disagree k.offset.isSome) ++ pad 1 ++ leBytes 2 k.missing
    ++ leSigned 4 (k.offset.getD 0) ++ leBytes 4 k.limit

def Attest.bytes (count : Nat) (a : Attest) : List Byte :=
  leBytes 2 count ++ u8 a.stateEnd.code ++ u8 a.worstState.code ++ u8 a.clsEnd.code
    ++ u8 a.worstCls.code ++ u8 a.leap.code ++ u8 a.quality.code ++ timeWord a.periodStart
    ++ timeWord a.periodEnd ++ leBytes 8 a.first ++ leBytes 8 a.last
    ++ (match a.theta with
        | some t => leSigned 8 t.last ++ leSigned 8 t.min ++ leSigned 8 t.max
        | none => pad 24)
    ++ leBytes 2 a.servoSeconds ++ leSigned 2 a.utcOffset ++ flag a.stepHeld ++ u8 a.period ++ pad 2
    ++ leSigned 4 a.cEnd ++ leSigned 4 a.iEnd ++ leBytes 4 a.eMax ++ leBytes 4 a.eEnd
    ++ leBytes 4 a.accuracy ++ a.counters.l0.bytes ++ a.counters.l1.bytes ++ a.counters.l2.bytes
    ++ a.counters.l3.bytes ++ a.chk0.bytes ++ a.chk1.bytes

/-- A record's body (10.5). -/
def Body.bytes (count : Nat) : Body → List Byte
  | .order kind payload => u8 kind ++ pad 1 ++ leBytes 2 payload.length ++ pad 4 ++ payload
  | .engine payload => leBytes 2 payload.length ++ pad 6 ++ payload
  | .extend r => u8 r.status.code ++ u8 r.phase.code ++ u8 r.used ++ pad 1 ++ time12? r.close
  | .abandon a =>
    u8 a.status.code ++ u8 a.cause.code ++ u8 a.phase.code ++ u8 a.used ++ leBytes 4 a.callCount
      ++ time12? a.close ++ flag a.drawn.isSome ++ pad 3 ++ time12? a.drawn ++ pad 4
  | .schedule b =>
    flag b.disarm ++ u8 b.phase.code ++ u8 b.m ++ pad 1 ++ leBytes 4 b.w ++ leBytes 4 b.x ++ pad 4
      ++ time16? b.requested ++ time16? b.effective ++ time16? b.close
  | .phase lateOpen => u8 GroupPhase.call.code ++ flag lateOpen ++ pad 6
  | .window g offsetMs drawn => leBytes 4 g ++ leBytes 4 offsetMs ++ time12? drawn ++ pad 4
  | .close drawn callCount used last =>
    time12 drawn ++ leBytes 4 callCount ++ u8 used ++ pad 7 ++ leBytes 8 last
  | .alarm index missed => u8 index ++ pad 1 ++ leBytes 2 missed ++ leBytes 2 count ++ pad 2
  | .attest a => a.bytes count
  | .clock theta marker c =>
    u8 c.code ++ pad 1 ++ leBytes 2 count ++ pad 4 ++ leSigned 8 theta ++ time16? marker
      ++ padTo 24 c.oldArea ++ padTo 40 c.newArea
  | .discard first last => leBytes 2 count ++ pad 6 ++ leBytes 8 first ++ leBytes 8 last
  | .run id first => leBytes 4 id ++ pad 4 ++ leBytes 8 first

/-- The length of a record's body, before the record is padded to a multiple of 8 (10.5). -/
def Body.size : Body → Nat
  | .order _ payload => 8 + payload.length
  | .engine payload => 8 + payload.length
  | .extend .. => 16
  | .abandon .. => 40
  | .schedule .. => 64
  | .phase .. => 8
  | .window .. => 24
  | .close .. => 32
  | .alarm .. => 8
  | .attest .. => 248
  | .clock .. => 96
  | .discard .. => 24
  | .run .. => 16

/-- A record's length: 32 plus its body, rounded up to a multiple of 8 (R194). -/
def Record.length (r : Record) : Nat := roundUp8 (32 + r.body.size)

def Record.flags (r : Record) : Nat :=
  (if r.urgent then 1 else 0) + (if r.late then 2 else 0) + (if r.steppedOver then 4 else 0)
    + (if r.coalesced then 8 else 0)

/-- A record byte for byte (10.5, R194). -/
def Record.bytes (r : Record) : List Byte :=
  padTo r.length
    (leBytes 2 r.length ++ u8 r.body.code ++ u8 r.source ++ u8 r.cls.code ++ u8 r.tag.code
      ++ u8 r.group ++ u8 r.flags ++ leBytes 8 r.seq ++ time12 r.stamp ++ leBytes 4 r.hostTag
      ++ r.body.bytes r.count)

/-! ## Responses (10.6) -/

/-- The data bytes of a response, after its response-start symbol (R195). -/
def Response.bytes : Response → List Byte
  | .ack tag seq t =>
    u8 1 ++ beBytes 2 tag ++ beBytes 8 seq ++ beBytes 2 t.epoch ++ beBytes 6 t.sec ++ beBytes 4 t.ns
  | .refuse tag reason => u8 2 ++ beBytes 2 tag ++ u8 reason.code

/-! ## The reference frame (10.7) -/

/-- The fields of a reference frame (R196). A code not defined reads as the first code; the frame's
verdict is then FORMAT and the fields are not used. -/
def refFields (data : List Byte) : RefFields :=
  { seconds := ofBe (slice data 0 6)
    utcOffset := signed16 (ofBe (slice data 6 2))
    leap := (Leap.ofCode (byteAt data 8)).getD .none
    quality := (Quality.ofCode (byteAt data 9)).getD .primary
    accuracy := ofBe (slice data 10 4)
    source := ofBe (slice data 14 2) }

/-- The verdict on a reference frame (R27): the first test that applies. -/
def refVerdict (data : List Byte) (how : RefEnd) : Verdict :=
  if data.length ≠ 24 ∨ how ≠ .frameEnd then .length
  else if (crc16 (slice data 0 22)).toNat ≠ ofBe (slice data 22 2) then .crc
  else if (Leap.ofCode (byteAt data 8)).isNone || (Quality.ofCode (byteAt data 9)).isNone then .format
  else .correct

/-! ## The order frame (10.6) -/

def frameKind (data : List Byte) : Nat := byteAt data 0
def frameGroup (data : List Byte) : Nat := byteAt data 1
def framePayloadLength (data : List Byte) : Nat := ofBe (slice data 4 2)
def framePayload (data : List Byte) : List Byte := slice data 8 (framePayloadLength data)

/-- The gateway tag, 0 when the frame ended before it was complete (R56, R195). -/
def frameTag (data : List Byte) : Nat := if data.length < 4 then 0 else ofBe (slice data 2 2)

/-- The length test (R56). A frame ended by anything but an EOF is damaged (R52). -/
def frameLengthOk (data : List Byte) (malformed : Bool) (how : FrameEnd) : Bool :=
  (how == .eof) && !malformed && decide (8 ≤ data.length)
    && decide (8 ≤ framePayloadLength data) && decide (framePayloadLength data ≤ 240)
    && data.length == 8 + framePayloadLength data + 4

/-- The CRC test (R57). -/
def frameCrcOk (data : List Byte) : Bool :=
  (crc32 (slice data 0 (8 + framePayloadLength data))).toNat
    == ofBe (slice data (8 + framePayloadLength data) 4)

/-! ## Block headers (10.3) -/

/-- A block header from the 64 bytes of a header read (10.3, R192). -/
def headerOfBytes (b : List Byte) : BlockHeader :=
  { next := BitVec.ofNat 64 (ofLe (slice b 0 8))
    state := b.getD 8 0#8
    flags := b.getD 9 0#8
    capacity := BitVec.ofNat 32 (ofLe (slice b 12 4))
    used := BitVec.ofNat 32 (ofLe (slice b 16 4)) }

/-- A slot head from the 16 bytes of a slot read (10.4). -/
def slotHeadOfBytes (b : List Byte) : SlotHead :=
  { kind := BitVec.ofNat 16 (ofLe (slice b 0 2))
    length := BitVec.ofNat 16 (ofLe (slice b 2 2))
    status := b.getD 4 0#8
    tag := BitVec.ofNat 32 (ofLe (slice b 8 4)) }

/-- Header bytes 20 to 39 at a finish: count, first and last sequence (R192). -/
def countsBytes (count first last : Nat) : List Byte :=
  leBytes 4 count ++ leBytes 8 first ++ leBytes 8 last

/-- The address of a byte of a block's body (10.3: the body begins at offset 64). -/
def bodyAddr (block : BitVec 64) (offset : Nat) : Nat := block.toNat + 64 + offset

/-! ## Settings as the host sees them (10.4) -/

/-- A check input's 8 body bytes. -/
def Check.settingBytes (k : Check) : List Byte :=
  flag k.enabled ++ u8 k.filter.code ++ pad 2 ++ leBytes 4 k.limit

/-- The 24 body bytes of the evidence settings in force (SET_EVIDENCE_PARAMS). -/
def ATT.settingBytes (a : ATT) : List Byte :=
  u8 a.period ++ pad 7 ++ a.chk0.settingBytes ++ a.chk1.settingBytes

/-- The 16 body bytes of the capture settings in force (SET_CAPTURE_PARAMS). -/
def CaptureParams.bytes (p : CaptureParams) : List Byte :=
  leBytes 4 p.flush ++ leBytes 2 p.high ++ leBytes 2 p.low ++ leBytes 2 p.push.toNat
    ++ flag p.notifyAll ++ pad 5

/-! ## QUERY_STATUS (R136, 10.4) -/

def Line.statusBytes (l : Line) : List Byte := flag l.up ++ flag l.opened ++ flag l.hold ++ u8 l.fifo.length

def alarmStatusBytes (epoch : Nat) : Option Alarm → List Byte
  | some a => flag true ++ pad 3 ++ leBytes 4 a.period ++ time12 (a.next.at epoch) ++ pad 4
  | none => pad 24

def Check.statusBytes (k : Check) : List Byte :=
  flag k.enabled ++ u8 k.edges ++ u8 (checkFlags k.double k.disagree k.offset.isSome) ++ pad 1
    ++ leBytes 2 k.missing ++ pad 2 ++ leSigned 4 (k.offset.getD 0) ++ pad 4

/-- The 416 bytes of the QUERY_STATUS result area. -/
def State.statusBytes (s : State) : List Byte :=
  time12 s.now ++ leSigned 2 s.tb.utcOffset ++ flag s.tb.demand.isSome ++ pad 1
    ++ leSigned 8 (match s.tb.demand with | some d => d.theta | none => 0)
    ++ u8 s.du.state.code ++ u8 s.du.cls.code ++ flag s.du.present ++ u8 s.du.seen.quality.code
    ++ leBytes 2 s.du.goodRun ++ leBytes 2 s.du.badRun ++ leSigned 8 s.du.lastOffset
    ++ leSigned 4 s.du.c ++ leSigned 4 s.du.i ++ leBytes 4 s.du.e ++ leBytes 4 s.du.seen.accuracy
    ++ leBytes 8 (s.du.expected.getD 0)
    ++ leBytes 8 s.sqm.next ++ leBytes 4 s.sqm.run ++ flag s.sqm.exhausted ++ pad 3
    ++ leBytes 2 s.pst.records.length ++ pad 6
    ++ s.lines.l0.statusBytes ++ s.lines.l1.statusBytes ++ s.lines.l2.statusBytes
    ++ s.lines.l3.statusBytes
    ++ (s.atu.groups.toList.flatMap fun g => u8 g.phase.code)
    ++ (s.atu.alarms.toList.flatMap fun a => alarmStatusBytes s.tb.epoch a)
    ++ u8 s.att.period ++ pad 7 ++ timeWord s.att.periodStart ++ leBytes 8 s.att.nextBoundary
    ++ s.att.chk0.statusBytes ++ s.att.chk1.statusBytes

end Sys2Proof.Machine
end

