-- ==== Sys2Proof/Machine/Ops.lean ====
section
/-!
DEFINITION. The operations the blocks share: notices and the interrupt message, host writes, the
internal agenda with its order and its merges, a line's flow state and transmitter, and the pending
store's fill.
-/

namespace Sys2Proof.Machine

open Sys2Proof

/-! ## Notices and the interrupt message (9.4) -/

/-- The bit of a cause in NOTICE and NOTICE_ENABLE. -/
def Cause.mask (c : Cause) : BitVec 15 := BitVec.ofNat 15 (2 ^ c.bit)

/-- An interrupt message that is due (R184): sent while messages and bus mastering are enabled and
the vector is unmasked, kept as the pending indication while it is masked, else neither sent nor
kept. The rule names no link state: a message due while the link is down is put on the connection (log
entry 38). -/
def State.message (s : State) (due : Bool) : State :=
  { s with
    ep := { s.ep with
      vectorPending := s.ep.vectorPending || (due && s.ep.msi && s.ep.busMaster && s.ep.masked) }
    wire := if due && s.ep.msi && s.ep.busMaster && !s.ep.masked then .interrupt :: s.wire else s.wire }

/-- A block sets a notice cause (R183); a cause that joins the enabled set is due a message (R184). -/
def State.notify (s : State) (c : Cause) : State :=
  { s.message (!(s.prt.notice.getLsbD c.bit) && s.prt.enable.getLsbD c.bit) with
    prt := { s.prt with notice := s.prt.notice ||| c.mask } }

/-- A notice cause set on a condition. -/
def State.notifyIf (s : State) (b : Bool) (c : Cause) : State := if b then s.notify c else s

/-! ## Host writes (R182) -/

/-- Between a CHAINS write and its effect instant CHE issues no new host access (R186). -/
def State.halted (s : State) : Bool := s.prt.chains == .waitDone

/-- CHE issues host writes, in order. -/
def State.post (s : State) (ws : List HostWrite) : State :=
  { s with posted := if s.halted then s.posted else s.posted ++ ws }

/-- A host write as it goes out on the link. -/
def HostWrite.output (w : HostWrite) : Output := .hostWrite w.addr w.bytes

/-- A write whose completion ends nothing. -/
def plainWrite (c : Chain) (block : BitVec 64) (addr : Nat) (bytes : List Byte) : HostWrite :=
  { chain := c, block := block, addr := addr, bytes := bytes, ends := .plain }

def HostWrite.isPlain (w : HostWrite) : Bool := w.ends == .plain

/-- The endpoint can send a host access (R182): the link is up and bus mastering is enabled. -/
def Endpoint.sends (e : Endpoint) : Bool := e.linkUp && e.busMaster

/-- The host sees the register window (R188): the link is up and the endpoint has been configured. -/
def Endpoint.seen (e : Endpoint) : Bool := e.linkUp && e.configured

/-- A write whose completion ends nothing is next to go out on the link. -/
def State.plainDue (s : State) : Bool :=
  s.ep.sends && (match s.posted.head? with | some w => w.isPlain | none => false)

/-- The writes in flight up to the first one whose completion ends something are sent, in the order in
which they were issued (R182). -/
def State.sendPlain (s : State) : State :=
  { s with
    posted := s.posted.dropWhile HostWrite.isPlain
    wire := ((s.posted.takeWhile HostWrite.isPlain).map HostWrite.output).reverse ++ s.wire }

/-- The status byte of the slot at a body offset (10.4, R193). -/
def statusWrite (c : Chain) (block : BitVec 64) (offset : Nat) (st : SlotStatus) : HostWrite :=
  plainWrite c block (bodyAddr block offset + 4) (u8 st.code)

/-- The TAKEN write of a block: offset 8 only (R192). -/
def takenWrite (c : Chain) (block : BitVec 64) : HostWrite :=
  plainWrite c block (block.toNat + 8) (u8 blockTaken)

/-- The write leaves TAKEN in a block's state or in a slot's status. -/
def HostWrite.marksTaken (w : HostWrite) : Bool :=
  w.isPlain && (w == takenWrite w.chain w.block || w.bytes == u8 SlotStatus.taken.code)

/-! ## The internal agenda (4.5) -/

/-- The place of a kind among equal stamps (R86). -/
def Body.kindRank : Body → Nat
  | .clock .. => 0
  | .discard .. => 1
  | .run .. => 2
  | .attest .. => 3
  | .schedule .. => 4 | .phase .. => 4 | .window .. => 4 | .close .. => 4 | .abandon .. => 4
  | .alarm .. => 5
  | .order .. => 6 | .engine .. => 6 | .extend .. => 6

/-- A group record: SCHEDULE, PHASE, WINDOW, CLOSE or ABANDON (R93). -/
def Body.isGroup (b : Body) : Bool := b.kindRank == 4

/-- The place of a group record within its group (R86). -/
def Body.groupRank : Body → Nat
  | .schedule .. => 0 | .phase .. => 1 | .window .. => 2 | .close .. => 3 | .abandon .. => 4
  | _ => 0

/-- The group of a group record, the index of an ALARM record, else 0 (R86). -/
def Internal.subject (e : Internal) : Nat :=
  match e.body with
  | .alarm index _ => index
  | b => if b.isGroup then e.group else 0

/-- The key by which the agenda is kept: stamp, kind, subject, place in the group, creation order
(R86). -/
def Internal.key (e : Internal) : List Nat :=
  [e.stamp.epoch, e.stamp.sec, e.stamp.ns, e.body.kindRank, e.subject, e.body.groupRank, e.order]

/-- Lexicographic order of keys. -/
def keyLt : List Nat → List Nat → Bool
  | _, [] => false
  | [], _ :: _ => true
  | a :: as, b :: bs => a < b || (a == b && keyLt as bs)

/-- A record added at the place its order gives it (R86). -/
def insertAgenda (e : Internal) : List Internal → List Internal
  | [] => [e]
  | w :: ws => if keyLt e.key w.key then e :: w :: ws else w :: insertAgenda e ws

/-- Two records of one coalescing class (R87). -/
def Body.sameClass : Body → Body → Bool
  | .clock _ _ a, .clock _ _ b => a.code == b.code
  | .attest _, .attest _ => true
  | .alarm i _, .alarm j _ => i == j
  | .discard .., .discard .. => true
  | _, _ => false

/-- The worse of two discipline states (R126). -/
def DState.rank : DState → Nat
  | .locked => 0 | .suspect => 1 | .reacquiring => 2 | .holdover => 3 | .acquiring => 4 | .free => 5

def DState.worse (a b : DState) : DState := if a.rank < b.rank then b else a

/-- The worse of two trace classes (R126). -/
def TraceClass.rank : TraceClass → Nat
  | .traceable => 0 | .degraded => 1 | .unsynchronized => 2

def TraceClass.worse (a b : TraceClass) : TraceClass := if a.rank < b.rank then b else a

/-- Line counters added, each saturating (R128, R129). -/
def Counters.plus (a b : Counters) : Counters :=
  { accepted := satAdd Config.count32 a.accepted b.accepted
    closed := satAdd Config.count32 a.closed b.closed
    length := satAdd Config.count32 a.length b.length
    crc := satAdd Config.count32 a.crc b.crc
    kind := satAdd Config.count32 a.kind b.kind
    group := satAdd Config.count32 a.group b.group
    full := satAdd Config.count32 a.full b.full
    aborted := satAdd Config.count32 a.aborted b.aborted }

/-- Two periods' θ values (R129). -/
def mergeTheta (w a : Option ThetaRange) : Option ThetaRange :=
  match w, a with
  | some w, some a => some { last := a.last, min := min w.min a.min, max := max w.max a.max }
  | some w, none => some w
  | none, a => a

/-- Two periods' check evidence (R129). -/
def CheckEvidence.merge (w a : CheckEvidence) : CheckEvidence :=
  { a with
    edges := satAdd Config.count4 w.edges a.edges
    offset := a.offset.orElse fun _ => w.offset
    double := w.double || a.double
    disagree := w.disagree || a.disagree
    missing := satAdd Config.count16 w.missing a.missing }

/-- A snapshot merged into a waiting ATTEST record (R129). -/
def Attest.merge (w a : Attest) : Attest :=
  { a with
    periodStart := w.periodStart
    worstState := w.worstState.worse a.worstState
    worstCls := w.worstCls.worse a.worstCls
    eMax := max w.eMax a.eMax
    servoSeconds := satAdd Config.count16 w.servoSeconds a.servoSeconds
    theta := mergeTheta w.theta a.theta
    stepHeld := w.stepHeld || a.stepHeld
    counters := Quad.zip Counters.plus w.counters a.counters
    chk0 := w.chk0.merge a.chk0
    chk1 := w.chk1.merge a.chk1 }

/-- The steering parts of two PARAMS records (R87): old settings kept if the part was present. -/
def mergeSteering (w a : Option SteeringPart) : Option SteeringPart :=
  match w, a with
  | some w, some a => some { a with old := w.old }
  | w, none => w
  | none, some a => some a

/-- The evidence parts of two PARAMS records (R87). -/
def mergeEvidence (w a : Option EvidencePart) : Option EvidencePart :=
  match w, a with
  | some w, some a => some { a with old := w.old }
  | w, none => w
  | none, some a => some a

/-- Old-value fields of the waiting record, new-value fields of the arriving one (R87). -/
def ClockBody.merge : ClockBody → ClockBody → ClockBody
  | .state old .., .state _ new cause q src good bad exp => .state old new cause q src good bad exp
  | .step old _, .step _ new => .step old new
  | .set old _, .set _ new => .set old new
  | .offset old _, .offset _ new => .offset old new
  | .trace old .., .trace _ new e div => .trace old new e div
  | .params ws we, .params s e => .params (mergeSteering ws s) (mergeEvidence we e)
  | .held old .., .held _ new d backward => .held old new d backward
  | w, _ => w

/-- The bodies of two records of one class merged (R87, R119, R120, R129). An arriving ALARM record
with missed count m stands for m + 1 instants. -/
def Body.merge : Body → Body → Body
  | .clock _ _ w, .clock theta marker a => .clock theta marker (w.merge a)
  | .attest w, .attest a => .attest (w.merge a)
  | .alarm i w, .alarm _ a => .alarm i (satAdd Config.count16 w (a + 1))
  | .discard first _, .discard _ last => .discard first last
  | w, _ => w

/-- A record merged into a waiting one: its count rises and its COALESCED flag is set (R87). -/
def Internal.merge (w a : Internal) : Internal :=
  { w with
    body := w.body.merge a.body
    count := satAdd Config.count16 w.count 1
    coalesced := true
    steppedOver := w.steppedOver || a.steppedOver }

/-- The agenda after a record arrives: merged into the waiting record of its class, else added. -/
def arrive (e : Internal) (agenda : List Internal) : List Internal :=
  if agenda.any (fun w => w.body.sameClass e.body) then
    agenda.map fun w => if w.body.sameClass e.body then w.merge e else w
  else insertAgenda e agenda

/-- A block creates an internal record (R86, R87). -/
def State.create (s : State) (stamp : Stamp) (cls : TraceClass) (group : Nat) (late steppedOver : Bool)
    (body : Body) : State :=
  { s with sqm := { s.sqm with
      created := s.sqm.created + 1
      agenda := arrive
        { stamp := stamp, cls := cls, group := group, late := late, steppedOver := steppedOver,
          coalesced := false, count := 1, order := s.sqm.created, body := body }
        s.sqm.agenda } }

/-- A record that is no group's, stamped now with the class in force. -/
def State.createNow (s : State) (body : Body) : State := s.create s.now s.du.cls 255 false false body

/-- Records taken out of the agenda without a number (R86). -/
def State.removeRecords (s : State) (p : Internal → Bool) : State :=
  { s with sqm := { s.sqm with agenda := s.sqm.agenda.filter fun e => !p e } }

/-! ## Order lines: flow and transmitter (3.5, 3.6) -/

/-- The transmitter of a line is free (R62): over a link that is UP, with no flow symbol due, it begins
the head response if there is one. -/
def Line.choose (l : Line) : Line :=
  { l with tx := if l.up && !l.flowDue && !l.acks.isEmpty then .response else .idle }

/-- The flow state by the pending fill and the FIFO fill (R63). -/
def Line.nextHold (l : Line) (fill high low : Nat) : Bool :=
  if l.hold then !(decide (fill ≤ low) && decide (l.fifo.length ≤ Config.fifoGo))
  else decide (fill ≥ high) || decide (l.fifo.length ≥ Config.fifoHold)

/-- A line evaluates its flow state (R63); at a change on a link that is UP a flow symbol becomes
due (R64). -/
def Line.evalFlow (fill high low : Nat) (l : Line) : Line :=
  { l with
    hold := l.nextHold fill high low
    flowDue := l.flowDue || (l.up && (l.nextHold fill high low != l.hold)) }

/-- Line `l` after a change of its FIFO fill. -/
def State.flowLine (s : State) (l : Fin 4) : State :=
  s.setLine l ((s.line l).evalFlow s.pst.records.length s.pst.params.high s.pst.params.low)

/-- Every line after a change of the pending fill or of the marks. -/
def State.flowAll (s : State) : State :=
  { s with
    lines := s.lines.map (Line.evalFlow s.pst.records.length s.pst.params.high s.pst.params.low) }

/-- An entry appended to the tail of a line's ack queue (R61). One that meets a transmitter sending idles
waits for the end of the idle, and whether that has come before a flow symbol is due is not modelled
but left to the queue (R62, log entry 13). -/
def Line.respond (l : Line) (r : Response) : Line :=
  { l with
    acks := l.acks ++ [r]
    tx := if l.tx = .idle ∧ l.up = true ∧ l.flowDue = false then .joined else l.tx }

/-! ## The pending store's fill (R161, R162) -/

/-- PST holds other records: the lines evaluate their flow states, and PENDING_HIGH is set when the
fill passes the high mark. -/
def State.setRecords (s : State) (rs : List Record) : State :=
  ({ s with pst := { s.pst with records := rs } } : State).flowAll.notifyIf
    (decide (s.pst.records.length < s.pst.params.high) && decide (s.pst.params.high ≤ rs.length))
    .pendingHigh

end Sys2Proof.Machine
end

