-- ==== Sys2Proof/Machine/AuctionOps.lean ====
section
/-!
DEFINITION. What ATU does to its groups, alarms and generator (chapter 5): timers that run out,
timers passed over, abandonment at a set, the draw, and the release actions.
-/

namespace Sys2Proof.Machine

open Sys2Proof

/-- A group is busy while one of its group records waits (R93). -/
def State.busy (s : State) (g : Fin 64) : Bool :=
  s.sqm.agenda.any fun e => e.body.isGroup && e.group == g.val

/-- The group is in CALL or CLOSING. -/
def Group.running (x : Group) : Bool := x.phase == .call || x.phase == .closing

def Body.isWindow : Body → Bool
  | .window .. => true
  | _ => false

def Body.isClose : Body → Bool
  | .close .. => true
  | _ => false

/-- The group's waiting records of some sort leave the agenda without a number. -/
def State.removeGroupRecords (s : State) (g : Fin 64) (p : Body → Bool) : State :=
  s.removeRecords fun e => e.body.isGroup && e.group == g.val && p e.body

/-! ## Timers that run out (R96, R101, R103, R107, R119) -/

/-- The call-open timer runs out in `epoch`, with class `cls` in force: a PHASE record at the effective
call-open instant (R101). -/
def State.runCallOpen (s : State) (g : Fin 64) (epoch : Nat) (cls : TraceClass)
    (late steppedOver : Bool) : State :=
  (s.setGroup g { s.group g with callTimer := false }).create
    ((s.group g).callOpen.at epoch) cls g.val late steppedOver (.phase late)

/-- The close-window timer runs out: a WINDOW record at the scheduled close (R103). -/
def State.runWindow (s : State) (g : Fin 64) (cls : TraceClass) (steppedOver : Bool) : State :=
  (s.setGroup g { s.group g with windowTimer := false }).create
    ((s.group g).close.at s.tb.epoch) cls g.val false steppedOver (.window 0 0 none)

/-- A CLOSE record at the drawn close (R106, R107). Its counts are filled at its release (R108). -/
def State.createClose (s : State) (g : Fin 64) (drawn : Stamp) (cls : TraceClass)
    (steppedOver : Bool) : State :=
  s.create drawn cls g.val false steppedOver (.close drawn 0 0 0)

/-- The close timer runs out (R107). -/
def State.runClose (s : State) (g : Fin 64) (cls : TraceClass) (steppedOver : Bool) : State :=
  match (s.group g).drawn with
  | some t => (s.setGroup g { s.group g with closeTimer := false }).createClose g t cls steppedOver
  | none => s

/-- An alarm's instant runs out in `epoch`, with class `cls` in force (R119). -/
def State.runAlarm (s : State) (a : Fin 8) (epoch : Nat) (cls : TraceClass) : State :=
  match s.alarm a with
  | none => s
  | some x =>
    ((s.setAlarm a (if x.period = 0 then none
        else some { x with next := x.next.add (msToNs x.period), late := false })).create
      (x.next.at epoch) cls 255 x.late false (.alarm a.val 0)).notify .alarm

/-- The counter reached the instant in this period's ordinary advance (R96). -/
def State.reached (s : State) (t : Instant) : Bool := Instant.crossed s.clock.prev s.instant t

def State.callOpenDue (s : State) (g : Fin 64) : Bool :=
  (s.group g).callTimer && s.reached (s.group g).callOpen

def State.windowDue (s : State) (g : Fin 64) : Bool :=
  (s.group g).windowTimer && s.reached (s.group g).close

def State.closeDue (s : State) (g : Fin 64) : Bool :=
  (s.group g).closeTimer &&
    (match (s.group g).drawn with | some t => s.reached t.instant | none => false)

def State.alarmDue (s : State) (a : Fin 8) : Bool :=
  match s.alarm a with
  | some x => s.reached x.next
  | none => false

/-- The alarms and the groups. -/
def allGroups : List (Fin 64) := List.finRange 64
def allAlarms : List (Fin 8) := List.finRange 8

/-- Some ATU timer was reached in this period and has not run out yet. -/
def State.timersDue (s : State) : Bool :=
  (allGroups.any fun g => s.callOpenDue g || s.windowDue g || s.closeDue g)
    || allAlarms.any fun a => s.alarmDue a

/-- The due timers of one group run out, with class `cls` in force. -/
def State.settleGroup (cls : TraceClass) (s : State) (g : Fin 64) : State :=
  let s := if s.callOpenDue g then s.runCallOpen g s.tb.epoch cls false false else s
  let s := if s.windowDue g then s.runWindow g cls false else s
  if s.closeDue g then s.runClose g cls false else s

/-- The due timer of one alarm runs out. -/
def State.settleAlarm (cls : TraceClass) (s : State) (a : Fin 8) : State :=
  if s.alarmDue a then s.runAlarm a s.tb.epoch cls else s

/-- Every timer reached in this period runs out (R96: "as part of TB's update"), with the trace class in
force at the period. -/
def State.settleTimers (s : State) (cls : TraceClass) : State :=
  if s.timersDue then
    allAlarms.foldl (State.settleAlarm cls) (allGroups.foldl (State.settleGroup cls) s)
  else s

/-! ## Timers passed over by a forward step or set (R114, R120) -/

/-- An armed timer at `t` is passed over. -/
def passed (pre post t : Instant) (armed : Bool) : Bool := armed && Instant.crossed pre post t

/-- The timers of one group passed over: their records are created STEPPED_OVER and the passed-over
limit becomes the post-step time (R114). -/
def State.passGroup (pre post : Instant) (s : State) (g : Fin 64) : State :=
  let x := s.group g
  let call := passed pre post x.callOpen x.callTimer
  let window := passed pre post x.close x.windowTimer
  let close := match x.drawn with | some t => passed pre post t.instant x.closeTimer | none => false
  let s := if call then s.runCallOpen g s.tb.epoch s.du.cls false true else s
  let s := if window then s.runWindow g s.du.cls true else s
  let s := if close then s.runClose g s.du.cls true else s
  if call || window || close then
    s.setGroup g { s.group g with passedOver := some (post.at s.tb.epoch) }
  else s

/-- The instants of an alarm in a skipped span that begins at or before its next instant (R120). -/
def Alarm.count (x : Alarm) (post : Instant) : Nat :=
  if x.period = 0 then 1
  else (((post.total : Int) - x.next.total) %
      ((Config.secondsWrap * Config.second : Nat) : Int)).toNat / msToNs x.period + 1

/-- An alarm passed over (R120). -/
def State.passAlarm (pre post : Instant) (s : State) (a : Fin 8) : State :=
  match s.alarm a with
  | none => s
  | some x =>
    if Instant.crossed pre post x.next then
      ((s.setAlarm a (if x.period = 0 then none
          else some { x with next := x.next.add (x.count post * msToNs x.period), late := false })).create
        (x.next.at s.tb.epoch) s.du.cls 255 false true
          (.alarm a.val (min Config.count16 (x.count post - 1)))).notify .alarm
    else s

/-- Every ATU timer in the skipped span (R19). -/
def State.passTimers (s : State) (pre post : Instant) : State :=
  allAlarms.foldl (State.passAlarm pre post) (allGroups.foldl (State.passGroup pre post) s)

/-! ## Abandonment (R113, R121) -/

/-- The internal ABANDON record of a running group. -/
def Group.abandonBody (x : Group) (cause : AbandonCause) (epoch : Nat) : Body :=
  .abandon { status := .ok, cause := cause, phase := x.phase, used := x.used, callCount := x.callCount,
             close := some (x.close.at epoch), drawn := x.drawn }

/-- A group in CALL or CLOSING is abandoned at a time set (R113). -/
def State.abandonGroup (pre : Stamp) (cls : TraceClass) (s : State) (g : Fin 64) : State :=
  if (s.group g).running then
    let x := s.group g
    ((s.removeGroupRecords g fun _ => true).setGroup g
      { x with callTimer := false, windowTimer := false, closeTimer := false,
               abandonPending := true }).create
      pre cls g.val false false (x.abandonBody .set pre.epoch)
  else s

/-- Every running group is abandoned at a time set. -/
def State.abandonRunning (s : State) (pre : Stamp) (cls : TraceClass) : State :=
  allGroups.foldl (State.abandonGroup pre cls) s

/-- The ABANDON record of a group that ran in `old` at the AUCTIONS scope (R121, step 2). -/
def State.resetAbandon (old : ATU) (s : State) (g : Fin 64) : State :=
  let x := old.groups.get g
  if x.running then s.create s.now s.du.cls g.val false false (x.abandonBody .reset s.tb.epoch)
  else s

/-! ## The generator and the draw (R104, R106) -/

/-- One step of the random generator (R104). -/
def genStep (g : BitVec 32) : BitVec 32 :=
  if g.getLsbD 0 then (g >>> 1) ^^^ 0x80200003#32 else g >>> 1

/-- The generator after a draw: 32 steps (R106). -/
def genDraw (g : BitVec 32) : BitVec 32 := times genStep 32 g

/-- offset_ms for G and W (R106). -/
def drawOffset (g : BitVec 32) (w : Nat) : Nat := g.toNat * (w + 1) / Config.unit

/-- The drawn close (R106), in the epoch of the WINDOW record's stamp. -/
def Group.drawnClose (x : Group) (g : BitVec 32) (epoch : Nat) : Stamp :=
  (x.close.add (msToNs (drawOffset g x.w))).at epoch

/-- The release of a WINDOW record stamped in `epoch` (R106): the state and the filled body. -/
def State.drawWindow (s : State) (g : Fin 64) (epoch : Nat) : State × Body :=
  let x := s.group g
  let v := genDraw s.atu.generator
  let drawn := x.drawnClose v epoch
  let stepped := match x.passedOver with | some lim => drawn.ble lim | none => false
  let past := stepped || drawn.ble s.now
  let s1 : State := { s with atu := { s.atu with generator := v } }
  let s2 := s1.setGroup g { x with phase := .closing, drawn := some drawn, closeTimer := !past }
  (if past then s2.createClose g drawn s.du.cls stepped else s2,
   .window v.toNat (drawOffset v x.w) (some drawn))

/-! ## EXTEND and ABANDON at their release (R109 to R112) -/

/-- The group a group number names, if it is one of the 64. -/
def groupOf (n : Nat) : Option (Fin 64) := if h : n < 64 then some ⟨n, h⟩ else none

/-- The close-window timer armed at the group's scheduled close, run out at once if that is at or
before now (R96, R109, R110). -/
def State.armWindow (s : State) (g : Fin 64) : State :=
  if (s.group g).close.ble s.instant then s.runWindow g s.du.cls false
  else s.setGroup g { s.group g with windowTimer := true }

/-- What an EXTEND for group `g` answers in the present state (R109 to R111). -/
def Group.extendStatus (x : Group) : SlotStatus :=
  if x.abandonPending then .state
  else match x.phase with
    | .call => if x.used = x.m then .limit else .ok
    | .closing => if x.used = x.m then .limit else .ok
    | .closed => .late
    | .idle => .state
    | .armed => .state

/-- An EXTEND accepted at stamp `t`: in CALL the scheduled close moves by X and a waiting WINDOW is
removed (R109); in CLOSING the draw is cancelled and the group returns to CALL (R110). -/
def State.extendGroup (s : State) (g : Fin 64) (t : Stamp) : State :=
  let x := s.group g
  if x.phase = .call then
    ((s.removeGroupRecords g Body.isWindow).setGroup g
      { x with close := x.close.add (msToNs x.x), used := x.used + 1, windowTimer := false }).armWindow g
  else
    ((s.removeGroupRecords g Body.isClose).setGroup g
      { x with close := t.instant.add (msToNs x.x), used := x.used + 1, closeTimer := false,
               drawn := none, phase := .call, windowTimer := false }).armWindow g

/-- The release action of an EXTEND record (R109 to R111). Group 255 is refused with STATE. -/
def State.releaseExtend (s : State) (group : Nat) (t : Stamp) : State × ExtendResult :=
  match groupOf group with
  | none => (s, { status := .state, phase := .idle, used := 0, close := none })
  | some g =>
    let st := (s.group g).extendStatus
    let s' := if st = .ok then s.extendGroup g t else s
    (s', { status := st, phase := (s'.group g).phase, used := (s'.group g).used,
           close := some ((s'.group g).close.at s'.tb.epoch) })

/-- The body of an engine ABANDON: status and phase before, the rest 0 (10.5). -/
def engineAbandon (status : SlotStatus) (phase : GroupPhase) : AbandonBody :=
  { status := status, cause := .engine, phase := phase, used := 0, callCount := 0, close := none, drawn := none }

/-- The release action of an engine ABANDON record (R112). -/
def State.releaseAbandon (s : State) (group : Nat) : State × AbandonBody :=
  match groupOf group with
  | none => (s, engineAbandon .state .idle)
  | some g =>
    let x := s.group g
    if x.running && !x.abandonPending then
      ((s.removeGroupRecords g fun _ => true).setGroup g Group.powerOn, engineAbandon .ok x.phase)
    else (s, engineAbandon .state x.phase)

/-! ## Release actions of internal group records, and the phase tag (R83, R94) -/

/-- The phase tag of a phase (R83). -/
def GroupPhase.tag : GroupPhase → PhaseTag
  | .idle => .opened | .armed => .opened | .call => .call | .closing => .closing | .closed => .closed

/-- SQM asks for the phase tag of a record's group; a record tagged CALL is counted (R83, R94). -/
def State.phaseTag (s : State) (group : Nat) : State × PhaseTag :=
  match groupOf group with
  | none => (s, .none)
  | some g =>
    let x := s.group g
    (s.setGroup g
      { x with callCount := if x.phase = .call then satAdd Config.count32 x.callCount 1 else x.callCount },
     x.phase.tag)

/-- The release action of a SCHEDULE, PHASE, CLOSE or internal ABANDON record, taken at the phase tag
request (R94, R99, R102, R108, R113). -/
def State.releaseGroup (s : State) (g : Fin 64) (body : Body) : State :=
  let x := s.group g
  match body with
  | .schedule b => s.setGroup g { x with phase := if b.disarm then .idle else .armed }
  | .phase _ => s.setGroup g { x with phase := .call, callCount := 0 }
  | .close .. => (s.setGroup g { x with phase := .closed, drawn := none }).notify .auctionClose
  | .abandon _ => s.setGroup g Group.powerOn
  | _ => s

end Sys2Proof.Machine
end

