-- ==== Sys2Proof/Machine/EvidenceOps.lean ====
section
/-!
DEFINITION. What ATT does (chapter 6): hand-overs into the period's accumulators, the snapshot and
the emission of a boundary, the judgement of a check second, the recognition of a check edge, and
the effect of a step or set on boundaries and watched marks.
-/

namespace Sys2Proof.Machine

open Sys2Proof

/-! ## Hand-overs (R46, R126, R127) -/

/-- DU hands over the state, E and the class in force (R46). -/
def State.handOver (s : State) : State :=
  { s with att := { s.att with
      worstState := s.att.worstState.worse s.du.state
      eMax := max s.att.eMax s.du.e
      worstCls := s.att.worstCls.worse s.du.cls } }

/-- A servo second's θ in the period (R126). -/
def takeTheta (old : Option ThetaRange) (theta : Int) : ThetaRange :=
  match old with
  | none => { last := theta, min := theta, max := theta }
  | some r => { last := theta, min := min r.min theta, max := max r.max theta }

/-- DU hands over a servo second (R46, R126). -/
def State.handServo (s : State) (theta : Int) : State :=
  { s with att := { s.att with
      servoSeconds := satAdd Config.count16 s.att.servoSeconds 1
      theta := some (takeTheta s.att.theta theta) } }

/-- DU hands over the reference values of a marker with a CORRECT frame (R46, R127). -/
def State.handReference (s : State) (v : Seen) : State :=
  { s with att := { s.att with leap := v.leap, quality := v.quality, accuracy := v.accuracy } }

/-- A step demand became held in the period (R127). -/
def State.handHeld (s : State) : State := { s with att := { s.att with stepHeld := true } }

/-! ## Boundaries (R123, R124, R128) -/

/-- A check input's evidence in a snapshot. -/
def Check.evidence (k : Check) : CheckEvidence :=
  { enabled := k.enabled, filter := k.filter, limit := k.limit, edges := k.edges, offset := k.offset,
    double := k.double, disagree := k.disagree, missing := k.missing }

/-- The period's snapshot at the boundary (R126 to R128). `v`: the part as this period's work leaves it,
whose DU and TB give the values at the boundary (R36). These are in force at the boundary, so they count in
the period that ends, too (R125). -/
def State.snapshot (s v : State) (b : Stamp) : Attest :=
  { stateEnd := v.du.state, worstState := s.att.worstState.worse v.du.state, clsEnd := v.du.cls,
    worstCls := s.att.worstCls.worse v.du.cls, leap := s.att.leap, quality := s.att.quality,
    periodStart := s.att.periodStart, periodEnd := b, first := 0, last := 0, theta := s.att.theta,
    servoSeconds := s.att.servoSeconds, utcOffset := v.tb.utcOffset, stepHeld := s.att.stepHeld,
    period := s.att.period, cEnd := v.du.c, iEnd := v.du.i, eMax := max s.att.eMax v.du.e, eEnd := v.du.e,
    accuracy := s.att.accuracy,
    counters := Quad.zip (fun (l : Line) c => l.counters.plus c) s.lines s.att.carried,
    chk0 := s.att.chk0.evidence, chk1 := s.att.chk1.evidence }

/-- A check input's period accumulators restart (R134). -/
def Check.restart (k : Check) : Check :=
  { k with edges := 0, offset := none, double := false, disagree := false, missing := 0 }

/-- The boundary after the one emitted (R123, R124). -/
def nextBoundary (b period : Nat) : Nat := if b + period ≥ Config.secondsWrap then 0 else b + period

/-- ATT's state at the start of a period: the accumulators from the values in force (R124). Where the work
of the period is still to be done, those before it and those it leaves are in force at the boundary, and a
demand that it ends was held at the period's start (R125; log entry 22). -/
def State.restartPeriod (s v : State) (b : Stamp) : ATT :=
  { s.att with
    periodStart := b
    nextBoundary := nextBoundary s.att.nextBoundary s.att.period
    worstState := s.du.state.worse v.du.state, servoSeconds := 0, theta := none
    eMax := max s.du.e v.du.e, worstCls := s.du.cls.worse v.du.cls
    stepHeld := s.tb.demand.isSome || v.tb.demand.isSome, carried := Quad.all Counters.zero
    chk0 := s.att.chk0.restart, chk1 := s.att.chk1.restart }

/-- An emitted boundary (R124, R70, R128), with DU's and TB's values read from `v`. -/
def State.emitBoundary (s v : State) : State :=
  let b : Stamp := ⟨s.tb.epoch, s.att.nextBoundary, 0⟩
  { s.create b v.du.cls 255 false false (.attest (s.snapshot v b)) with
    lines := s.lines.map fun l => { l with counters := Counters.zero }
    att := s.restartPeriod v b }

/-- The counter reached the next boundary in this period's ordinary advance (R123). -/
def State.boundaryDue (s : State) : Bool := s.reached ⟨s.att.nextBoundary, 0⟩

/-! ## Check inputs (R132 to R134) -/

/-- An edge of this input was recognized in the second that ended. `prev` lies in that second (R134). -/
def State.edgeSeen (s : State) (k : Check) : Bool :=
  k.lastEpoch == some s.tb.epoch && k.lastSec == s.clock.prev.sec

/-- One enabled input judges the ended second and sets its watched mark (R134). An input that
SET_EVIDENCE_PARAMS enables in the carry's own period is none of these: the carry has been judged before that
(`State.configureEvidence`). -/
def State.judgeCheck (s : State) (k : Check) : Check :=
  if k.enabled then
    { k with
      missing := if k.watched && !s.edgeSeen k then satAdd Config.count16 k.missing 1 else k.missing
      watched := true }
  else k

/-- Each enabled input judges the second that has just ended (R134). -/
def State.judgeSecond (s : State) : State :=
  { s with
    att := { s.att with chk0 := s.judgeCheck s.att.chk0, chk1 := s.judgeCheck s.att.chk1 }
    clock := { s.clock with carried := false } }

/-- The judgement, if the period's advance carried and none was made yet. -/
def State.settleJudge (s : State) : State := if s.clock.carried then s.judgeSecond else s

/-- The signed offset of a latch from its second (R133). -/
def checkOffset (ns : Nat) : Int := if ns < 500000000 then (ns : Int) else (ns : Int) - 1000000000

/-- A pulse has stayed high for its filter's length of own time (R132). -/
def State.edgeDue (s : State) (k : Check) : Bool :=
  match k.pulse with
  | some p => decide (ownSpan p.riseOwn s.clock.own ≥ p.filter.span)
  | none => false

/-- The input after the recognition of an edge latched at `t` (R133). -/
def Check.recognize (k : Check) (t : Stamp) (now : Stamp) : Check :=
  { k with
    pulse := none
    latch := some t
    offset := some (checkOffset t.ns)
    edges := satAdd Config.count4 k.edges 1
    double := k.double || (k.lastEpoch == some now.epoch && k.lastSec == now.sec)
    disagree := k.disagree || decide ((checkOffset t.ns).natAbs > k.limit)
    lastEpoch := some now.epoch
    lastSec := now.sec }

/-- The edge of input `c`, if due, is recognized (R133); `now`: the reading of now at this instant. A
judgement of the second that ended with this period's carry comes first (R134). -/
def State.recognizeEdge (s : State) (c : CheckInput) (now : Stamp) : State :=
  match (s.check c).pulse with
  | none => s
  | some p =>
    if s.edgeDue (s.check c) then
      let s := s.settleJudge
      (s.setCheck c ((s.check c).recognize p.stamp now)).notifyIf
        (decide ((checkOffset p.stamp.ns).natAbs > (s.check c).limit)) .checkDisagree
    else s

/-! ## A step or set (R131, R134) -/

/-- The judgement and the boundary that this period's ordinary advance already reached come before a
step or set moves the counter (R131: such a boundary "was emitted"). `v`: the part as this period's work
leaves it (R36). -/
def State.settleAdvance (s v : State) : State :=
  let s := s.settleJudge
  if s.boundaryDue then s.emitBoundary v else s

/-- ATT after a step or set to `post`: the next boundary is the first later than it, and no input
watches the second (R131, R134). -/
def State.moveEvidence (s : State) (post : Instant) : State :=
  { s with att := { s.att with
      nextBoundary := boundaryAfter post s.att.period
      chk0 := { s.att.chk0 with watched := false }
      chk1 := { s.att.chk1 with watched := false } } }

end Sys2Proof.Machine
end

