-- ==== Sys2Proof/Machine/DisciplineOps.lean ====
section
/-!
DEFINITION. What DU and TB do (chapters 1 and 2): the judgement of a second, the servo, the step
gate, the plan of an action instant and its effects, E, the trace class, and a time that is moved.
-/

namespace Sys2Proof.Machine

open Sys2Proof

/-! ## Judging a second (2.2) -/

def SecondCause.good (c : SecondCause) : Bool := c == .goodConsistent || c == .goodInconsistent

/-- The unsaturated offset D of a marker latch from the announced second (R33). -/
def offsetD (t : Stamp) (sRef : Nat) : Int :=
  ((t.sec : Int) - (sRef : Int)) * (Config.second : Int) + (t.ns : Int)

/-- θ: D saturated (R33). -/
def saturate (d : Int) : Int := clamp d Config.errorMax

/-- The first test of R31 that fails, none if the marker passes all of them. -/
def DU.badCause (du : DU) (own : Nat) : Option SecondCause :=
  if du.present && (match du.refOwn with
      | some r => decide (ownSpan r own > Config.lateAbove) | none => false) then some .lateMarker
  else match du.latch with
    | none => some .noFrame
    | some f =>
      match f.verdict with
      | .length => some .length
      | .crc => some .crc
      | .format => some .format
      | .correct =>
        if f.fields.quality = .unusable then some .unusable
        else if ownSpan f.endOwn own < Config.frameLead then some .lateFrame
        else none

/-- The marker comes early (R29): below 999,000,000 ns of own time from a PRESENT reference marker. -/
def DU.earlyMarker (du : DU) (own : Nat) : Bool :=
  du.present && (match du.refOwn with
    | some r => decide (ownSpan r own < Config.earlyBelow) | none => false)

/-- The counts after a second (R34). -/
def runCounts (cause : SecondCause) (good bad : Nat) : Nat × Nat :=
  match cause with
  | .goodConsistent => (satAdd Config.count16 good 1, 0)
  | .goodInconsistent => (1, 0)
  | _ => (0, satAdd Config.count16 bad 1)

/-- The expected marker second after a bad second that advances it (R32). -/
def DU.expectNext (du : DU) : Option Nat := du.expected.map (· + 1)

/-- The last-seen values after a marker judgement: those of a latched CORRECT frame (R28). -/
def DU.seenNow (du : DU) : Seen :=
  match du.latch with
  | some f => if f.verdict = .correct then
      { quality := f.fields.quality, accuracy := f.fields.accuracy, leap := f.fields.leap,
        source := f.fields.source }
    else du.seen
  | none => du.seen

/-- The latch holds a frame with verdict CORRECT. -/
def DU.correctLatched (du : DU) : Bool :=
  match du.latch with
  | some f => f.verdict == .correct
  | none => false

/-- A bad second as it waits for its action instant; it measures no offset (R33). -/
def badSecond (cause : SecondCause) (latch : Option Stamp) (du : DU) (correct : Bool)
    (period : Nat) : Second :=
  { cause := cause, latch := latch, d := 0, theta := 0, accuracy := 0, utcOffset := 0,
    expected := du.expected, goodRun := du.goodRun, badRun := du.badRun, seen := du.seen,
    correct := correct, period := period }

/-- An early marker (R29): judged on its interval alone; only the counts and the last-seen values
change (R28, R34). -/
def DU.judgeEarly (du : DU) (now : Stamp) (period : Nat) : DU :=
  let du1 := { du with
    seen := du.seenNow
    goodRun := (runCounts .early du.goodRun du.badRun).1
    badRun := (runCounts .early du.goodRun du.badRun).2 }
  { du1 with judged := du.judged ++ [badSecond .early (some now) du1 du.correctLatched period] }

/-- A marker taken as a reference (R29): it becomes the reference marker, the missing-marker timer
restarts from it, the latch is emptied, the reference state is PRESENT. -/
def DU.takeReference (du : DU) (own : Nat) : DU :=
  { du with refOwn := some own, missingAt := some (own + ownUnits Config.missingFirst),
            latch := none, present := true, seen := du.seenNow }

/-- A marker taken as a reference that fails a test of R31. -/
def DU.judgeBad (du : DU) (cause : SecondCause) (now : Stamp) (own period : Nat) : DU :=
  let du1 := { du.takeReference own with
    expected := du.expectNext
    goodRun := (runCounts cause du.goodRun du.badRun).1
    badRun := (runCounts cause du.goodRun du.badRun).2 }
  { du1 with judged := du.judged ++ [badSecond cause (some now) du1 du.correctLatched period] }

/-- A good second (R32, R33): consistent if it names the expected second; θ is the last offset. -/
def DU.judgeGood (du : DU) (f : RefFields) (now : Stamp) (own period : Nat) : DU :=
  let cause : SecondCause := if du.expected = some f.seconds then .goodConsistent else .goodInconsistent
  let d := offsetD now f.seconds
  let du1 := { du.takeReference own with
    expected := some (f.seconds + 1)
    goodRun := (runCounts cause du.goodRun du.badRun).1
    badRun := (runCounts cause du.goodRun du.badRun).2
    lastOffset := saturate d }
  { du1 with judged := du.judged ++ [
      { cause := cause, latch := some now, d := d, theta := saturate d, accuracy := f.accuracy,
        utcOffset := f.utcOffset, expected := du1.expected, goodRun := du1.goodRun,
        badRun := du1.badRun, seen := du1.seen, correct := true, period := period }] }

/-- A marker is latched and judged (R26, R29, R31). A frame in progress is discarded, as R26 says; where
R31 speaks of a frame in progress at a marker that reaches the latch after it, the model follows R26 (log
entry 36). -/
def DU.judgeMarker (du : DU) (now : Stamp) (own period : Nat) : DU :=
  let du0 := { du with receiver := .outside }
  if du0.earlyMarker own then du0.judgeEarly now period
  else match du0.badCause own, du0.latch with
    | some cause, _ => du0.judgeBad cause now own period
    | none, some f => du0.judgeGood f.fields now own period
    | none, none => du0.judgeBad .noFrame now own period

/-! ## The state table, the servo, the gate (R35, R6, R8, R11) -/

/-- The discipline state after a second (R35). -/
def DState.after (st : DState) (cause : SecondCause) : DState :=
  match st, cause with
  | .free, .goodConsistent => .acquiring
  | .free, .goodInconsistent => .acquiring
  | .free, _ => .free
  | .acquiring, .goodConsistent => .locked
  | .acquiring, .goodInconsistent => .acquiring
  | .acquiring, _ => .free
  | .locked, .goodConsistent => .locked
  | .locked, _ => .suspect
  | .suspect, .goodConsistent => .locked
  | .suspect, _ => .holdover
  | .holdover, .goodConsistent => .reacquiring
  | .holdover, .goodInconsistent => .reacquiring
  | .holdover, _ => .holdover
  | .reacquiring, .goodConsistent => .locked
  | .reacquiring, .goodInconsistent => .reacquiring
  | .reacquiring, _ => .holdover

/-- The servo: the new I and C (R6). -/
def servo (st : Steering) (iPrev theta : Int) : Int × Int :=
  let iTent := clamp (iPrev + roundDiv theta (2 ^ st.k)) st.limit
  let cTent := -(roundDiv theta (2 ^ st.p) + iTent)
  if cTent.natAbs ≤ st.limit then (iTent, cTent)
  else (iPrev, if cTent > 0 then (st.limit : Int) else -(st.limit : Int))

/-- No group is in CALL or CLOSING. -/
def State.noAuction (s : State) : Bool := allGroups.all fun g => !(s.group g).running

/-- The step gate (R11). -/
def State.gateOpen (s : State) : Bool :=
  s.lines.allB (fun l => !l.opened) && s.evt.fifo.isEmpty && s.evt.ctx.state != .active && s.noAuction

/-- What an action instant does about the counter (R10, R12 to R17). -/
inductive Move | keep | withdraw | hold | step | set
  deriving DecidableEq, Repr

/-- A servo second (R7). -/
def servoSecond (old new : DState) : Bool := new == .locked && old != .acquiring

/-- The step evaluation of a servo second (R10, R14, R15, R16). -/
def State.stepMove (s : State) (sec : Second) : Move :=
  if s.tb.demand.isSome || !s.du.steering.never then
    if sec.theta.natAbs > s.du.steering.threshold then
      if s.gateOpen && !(s.tb.epoch ≥ Config.epochMax && sec.d > 0) then .step else .hold
    else if s.tb.demand.isSome then .withdraw else .keep
  else .keep

/-- The move of a second's action instant. -/
def State.moveOf (s : State) (sec : Second) : Move :=
  let st := s.du.state.after sec.cause
  if s.du.state = .acquiring ∧ st = .locked then .set
  else if st = .locked then s.stepMove sec
  else if st = .holdover ∨ st = .free then .withdraw
  else .keep

/-- I and C after the second's work (R6, R8, R12, R17). -/
def State.ratesAfter (s : State) (sec : Second) (mv : Move) : Int × Int :=
  let v := servo s.du.steering s.du.i sec.theta
  match s.du.state.after sec.cause with
  | .locked => match mv with
    | .set => (0, 0)
    | .step => (v.1, -v.1)
    | _ => v
  | .suspect => (s.du.i, s.du.c)
  | .holdover => (s.du.i, -s.du.i)
  | .reacquiring => (s.du.i, -s.du.i)
  | .free => (s.du.i, 0)
  | .acquiring => (s.du.i, 0)

/-- E after the second's work (R12, R17, R39 to R42). -/
def State.errorAfter (s : State) (sec : Second) (mv : Move) : Nat :=
  let base := max sec.accuracy s.du.limits.floor
  match s.du.state.after sec.cause with
  | .locked => match mv with
    | .set => min Config.errorMax base
    | .step => min Config.errorMax base
    | _ => satAdd Config.errorMax sec.theta.natAbs base
  | .suspect => if s.du.state = .locked then satAdd Config.errorMax s.du.e s.du.limits.rate else s.du.e
  | .free => Config.errorMax
  | .acquiring => Config.errorMax
  | .holdover => s.du.e
  | .reacquiring => s.du.e

/-- The trace class of a state and E (R43). -/
def classOf (st : DState) (e divergence : Nat) : TraceClass :=
  if st = .free ∨ st = .acquiring then .unsynchronized
  else if e ≤ divergence then .traceable else .degraded

/-- A fresh entry to HOLDOVER (R41): from SUSPECT or from REACQUIRING. -/
def holdoverEntry (old new : DState) : Bool := new == .holdover && old != .holdover

/-- DU after a second's work (R36, steps 1 to 5). -/
def State.duAfter (s : State) (sec : Second) (mv : Move) : DU :=
  let st := s.du.state.after sec.cause
  let e := s.errorAfter sec mv
  let enter := holdoverEntry s.du.state st
  { s.du with
    state := st
    i := (s.ratesAfter sec mv).1
    c := (s.ratesAfter sec mv).2
    e := e
    eBase := if enter then e else s.du.eBase
    holdCount := if enter then 0 else s.du.holdCount
    holdNext := if enter then s.clock.own + ownUnits Config.second else s.du.holdNext
    cls := classOf st e s.du.limits.divergence }

/-! ## The counter moved (R12, R17, R18) -/

/-- The epoch after a move back by `d` (R12, R17). -/
def epochAfter (epoch : Nat) (d : Int) : Nat := if d > 0 then epoch + 1 else epoch

/-- The counter placed at `post` (fraction `frac`) in `epoch`; no instant lies between the period's
start and it any more. -/
def State.placeCounter (s : State) (post : Instant) (frac epoch : Nat) : State :=
  { s with
    tb := { s.tb with sec := post.sec, ns := post.ns, frac := frac, epoch := epoch }
    clock := { s.clock with prev := post } }

/-- A forward move passes timers over (R19); every move shifts the boundary and the watched marks
(R20, R131, R134). -/
def State.afterMove (s : State) (pre post : Instant) (d : Int) : State :=
  let s := s.moveEvidence post
  if d < 0 then s.passTimers pre post else s

/-- The time a step or set by D gives (R12, R17): the pre-step time minus D. -/
def State.movedBy (s : State) (d : Int) : Stamp := (s.instant.minus d).at (epochAfter s.tb.epoch d)

/-- CLOCK STEP or SET: stamped at the time before, in its epoch, with the class in force before (R23). -/
def State.recordMove (s : State) (pre : Stamp) (cls : TraceClass) (theta : Int) (marker : Option Stamp)
    (body : ClockBody) : State :=
  s.create pre cls 255 false false (.clock theta marker body)

/-- A step is applied (R12, items 1, 2, 5, 6). `cls`: the class in force just before. -/
def State.applyStep (s : State) (cls : TraceClass) (sec : Second) : State :=
  let pre := s.now
  let post := s.movedBy sec.d
  let s1 := s.placeCounter post.instant s.tb.frac post.epoch
  let s2 := s1.recordMove pre cls sec.theta sec.latch (.step pre post)
  s2.afterMove pre.instant post.instant sec.d

/-- The initial set (R17, items 1, 2, 5, 6). At epoch 65,535 a backward set is not carried out. -/
def State.applySet (s : State) (cls : TraceClass) (sec : Second) : State :=
  let pre := s.now
  let s0 := s.abandonRunning pre cls
  if s.tb.epoch ≥ Config.epochMax ∧ sec.d > 0 then
    (s0.recordMove pre cls sec.theta sec.latch (.set pre pre)).moveEvidence pre.instant
  else
    let post := s.movedBy sec.d
    let s1 := s0.placeCounter post.instant s.tb.frac post.epoch
    let s2 := s1.recordMove pre cls sec.theta sec.latch (.set pre post)
    s2.afterMove pre.instant post.instant sec.d

/-! ## The action instant (R36) -/

/-- The time a held step would give: its epoch is a free value where none can follow (log entry 15). -/
def State.heldTime (s : State) (d : Int) : Stamp :=
  if s.tb.epoch ≥ Config.epochMax ∧ d > 0 then
    { s.movedBy d with epoch := (Config.heldEpochAtLimit s.draws).toNat }
  else s.movedBy d

/-- The counter's part of the second's work: a step, the initial set, or the demand's fate. The
counter and its records only; notices and the HELD record follow in `holdDemand`. -/
def State.moveTime (s : State) (cls : TraceClass) (sec : Second) (mv : Move) : State :=
  match mv with
  | .step => { s with tb := { s.tb with demand := none } }.applyStep cls sec
  | .set => { s with tb := { s.tb with demand := none } }.applySet cls sec
  | .withdraw => { s with tb := { s.tb with demand := none } }
  | .hold => { s with tb := { s.tb with demand := some { theta := sec.theta, d := sec.d } } }
  | .keep => s

/-- A newly held demand (R13): the notice, ATT's step-held item, the CLOCK HELD record. -/
def State.holdDemand (s : State) (newly : Bool) (sec : Second) : State :=
  if newly then
    { ((s.notify .stepHeld).handHeld.createNow
      (.clock sec.theta sec.latch (.held s.now (s.heldTime sec.d) sec.d (decide (sec.d > 0))))) with
      draws := s.draws + 1 }
  else s

/-- A change of discipline state (R37): the CLOCK STATE record and the notice. -/
def State.stateChanged (s : State) (old : DState) (sec : Second) : State :=
  if s.du.state ≠ old then
    (s.createNow (.clock sec.theta sec.latch
      (.state old s.du.state sec.cause sec.seen.quality sec.seen.source sec.goodRun sec.badRun
        sec.expected))).notify .disciplineChange
  else s

/-- A change of trace class (R44): the CLOCK TRACE record, stamped `now` with `cls`, and the notice. -/
def State.classChanged (s : State) (old : TraceClass) (now : Stamp) (cls : TraceClass) : State :=
  if s.du.cls ≠ old then
    (s.create now cls 255 false false
      (.clock s.du.lastOffset none (.trace old s.du.cls s.du.e s.du.limits.divergence))).notify .traceChange
  else s

/-- A good second that leaves DU in LOCKED: TB adopts a differing UTC offset (R21). -/
def State.adoptOffset (s : State) (sec : Second) : State :=
  if sec.cause.good && s.du.state == .locked && sec.utcOffset != s.tb.utcOffset then
    { s.createNow (.clock sec.theta sec.latch (.offset s.tb.utcOffset sec.utcOffset)) with
      tb := { s.tb with utcOffset := sec.utcOffset } }
  else s

/-- TB recomputes INC from C (R4). -/
def State.setInc (s : State) : State := { s with tb := { s.tb with inc := incOf s.du.c } }

/-- The hand-over to ATT (R46). -/
def State.handSecond (s : State) (servoRan : Bool) (sec : Second) : State :=
  let s := s.handOver
  let s := if servoRan then s.handServo sec.theta else s
  if sec.correct then s.handReference sec.seen else s

/-- The whole of a second's work at its action instant, in the order of R36. -/
def State.workOf (s : State) (sec : Second) : State :=
  let mv := s.moveOf sec
  let newly := decide (mv = .hold) && s.tb.demand.isNone
  let old := s.du.state
  let oldCls := s.du.cls
  let s1 : State := { s with du := s.duAfter sec mv }
  let s2 := s1.setInc.moveTime oldCls sec mv
  let s3 := s2.stateChanged old sec
  let s4 := s3.holdDemand newly sec
  let s5 := s4.classChanged oldCls s4.now s4.du.cls
  let s6 := s5.adoptOffset sec
  s6.handSecond (servoSecond old (old.after sec.cause)) sec

/-- A second's action instant (R36). A step or set is preceded by what this period's ordinary advance
reached, whose records read DU as the work leaves it (R131, R36). -/
def State.actOn (s : State) (sec : Second) : State :=
  let mv := s.moveOf sec
  if mv = .step ∨ mv = .set then (s.settleAdvance (s.workOf sec)).workOf sec else s.workOf sec

/-! ## Seconds that come of own time (R30, R41) -/

/-- A judged second's action instant has come: an oscillator period followed its latch (R26). -/
def State.actionDue (s : State) : Bool :=
  match s.du.judged with
  | sec :: _ => decide (sec.period < s.clock.period)
  | [] => false

/-- Now has been read in this period (R2): what a step or set still leaves is another period's now. -/
def State.reading (s : State) : State := { s with clock := { s.clock with read := true } }

/-- The oldest judged second's work, whose records read now. -/
def State.takeAction (s : State) : State :=
  match s.du.judged with
  | sec :: rest => (State.actOn { s with du := { s.du with judged := rest } } sec).reading
  | [] => s

/-- The missing-marker timer has expired (R30). -/
def State.missingDue (s : State) : Bool :=
  match s.du.missingAt with
  | some t => decide (t ≤ s.clock.own)
  | none => false

/-- A MISSING second: counted and acted on at the expiry (R26, R30, R32, R34); its records read now. -/
def State.missingSecond (s : State) : State :=
  let du1 := { s.du with
    present := false
    missingAt := some (s.clock.own + ownUnits Config.second)
    expected := s.du.expectNext
    goodRun := (runCounts .missing s.du.goodRun s.du.badRun).1
    badRun := (runCounts .missing s.du.goodRun s.du.badRun).2 }
  (State.actOn { s with du := du1 } (badSecond .missing none du1 false s.clock.period)).reading

/-- The holdover count runs, and a further second of own time has passed (R41). -/
def State.holdoverDue (s : State) : Bool :=
  (s.du.state == .holdover || s.du.state == .reacquiring) && decide (s.du.holdNext ≤ s.clock.own)

/-- The judged seconds whose action instant this period is take effect, oldest first (R26). -/
def State.closeActions (s : State) : State :=
  times (fun s => if s.actionDue then s.takeAction else s) s.du.judged.length s

/-- The part as a command finds it that reads now: this period's marker action instants are done first, since
all readings of now in one period return the same value (R2; log entry 5). -/
def State.acted (s : State) : State := (if s.actionDue then s.closeActions else s).reading

/-- A further second of holdover (R41): s rises, E is recomputed, the class with it (R43). The record of a
class that changes is stamped as the period's action instant leaves now and the class (R2, R36), which then
follows (R41 allows either order). -/
def State.holdoverSecond (s : State) : State :=
  let e := satAdd Config.errorMax s.du.eBase (s.du.limits.rate * (s.du.holdCount + 1))
  let s1 : State := { s with du := { s.du with
    holdCount := s.du.holdCount + 1
    holdNext := s.du.holdNext + ownUnits Config.second
    e := e
    cls := classOf s.du.state e s.du.limits.divergence } }
  let t := (s1.classChanged s.du.cls s1.acted.now s1.acted.du.cls).handOver
  if s1.du.cls = s.du.cls then t else t.acted

/-! ## What the work of a period leaves (R2, R36) -/

/-- DU's and TB's work that this period calls for and that is not done yet: action instants, then the
missing-marker timer, then a holdover second. Where a second's action instant and a whole second of holdover
fall in one period, R41 allows either order; that the action instant comes first here is the model's choice
(log entry 5). The commands take them in the order of the queue. -/
def State.work (s : State) : State :=
  let s := s.closeActions
  let s := if s.missingDue then s.missingSecond else s
  if s.holdoverDue then s.holdoverSecond else s

/-- Some of that work is not done yet. -/
def State.workDue (s : State) : Bool := s.actionDue || s.missingDue || s.holdoverDue

/-- The part with the work of this period done. What reads the discipline state, E or the trace class in a
period does the work first, or reads the values this state has, so that every reading of one period returns what
the work leaves (R36; log entry 5). -/
def State.done (s : State) : State := if s.workDue then s.work else s

/-- The same, for a command that reads now, too (R2). -/
def State.left (s : State) : State := s.done.reading

/-- A record that is no group's, stamped with now and the class as this period's work leaves them, which is
then still to be done. -/
def State.createLeft (s : State) (body : Body) : State :=
  s.create s.left.now s.left.du.cls 255 false false body

/-- The part with DU and TB as every reading of this period finds them (R2, R36). -/
def State.atInstant (s : State) : State := { s with tb := s.left.tb, du := s.left.du }

/-! ## Readings of work that is still to be done (R2, R36) -/

/-- The promises in the order of what they hold. -/
def Promise.rank : Promise → Nat
  | .nothing => 0
  | .cls => 1
  | .time => 2
  | .values => 3

/-- What has been read of the work that is still to be done. -/
def State.promise (s : State) (p : Promise) : State :=
  if s.workDue then
    { s with clock := { s.clock with
      promised := if s.clock.promised.rank ≤ p.rank then p else s.clock.promised } }
  else s

/-- Something has read what work leaves that is still to be done. -/
def State.owed (s : State) : Bool := s.osc && s.workDue && s.clock.promised != .nothing

/-- The work leaves in `t` what has been read of it in `s`. An attestation boundary reads the values that end
its period (R126, R127). -/
def State.keeps (s t : State) : Bool :=
  let cls := t.left.du.cls == s.left.du.cls
  let time := t.left.now == s.left.now
  let values := t.left.du.state == s.left.du.state && t.left.du.e == s.left.du.e
    && t.left.du.c == s.left.du.c && t.left.du.i == s.left.du.i
    && t.left.tb.utcOffset == s.left.tb.utcOffset && t.left.tb.demand.isSome == s.left.tb.demand.isSome
  match s.clock.promised with
  | .nothing => true
  | .cls => cls
  | .time => cls && time
  | .values => cls && time && values

/-- `k` comes before the work of the period, unless that work would then leave another value than the one
that has been read of it; then `k` comes after it (R2, R11, R36; log entry 5). -/
def State.keep (s : State) (k : State → State) : State :=
  if s.owed && !s.keeps (k s) then k s.done else k s

end Sys2Proof.Machine
end

