-- ==== Sys2Proof/Machine/ChainOps.lean ====
section
/-!
DEFINITION. What CHE does on the three chains (chapters 7 and 8): parks, faults, the walk from block
to block, the finishing of blocks, the checks of slots, the close of a capture block, accesses that the
endpoint cannot send, the effects of the CHAINS and AUCTIONS scopes, and what is done before the next
command is taken.
-/

namespace Sys2Proof.Machine

open Sys2Proof

/-! ## The walk (R145, R146, R164) -/

/-- The walk enters the block at an address: its header is read (R145). -/
def State.enterBlock (s : State) (c : Chain) (addr : BitVec 64) : State :=
  s.setCtx c { s.ctx c with current := addr, walk := .header }

/-- A park (R146): averted by a remembered RESUME, whose re-read follows at once (R142). -/
def State.park (s : State) (c : Chain) (k : ParkKind) : State :=
  let x := s.ctx c
  if x.remembered then
    s.setCtx c { x with remembered := false, walk := if k = .onBlock then .header else .next }
  else
    (s.setCtx c { x with state := .parked, park := some k, walk := .none }).notify .chainParked

/-- The chain enters FAULT (R147, R170). -/
def State.enterFault (s : State) (c : Chain) (cause : FaultCause) (at_ : BitVec 64) : State :=
  (s.setCtx c { s.ctx c with
    state := .fault, fault := some cause, remembered := false, park := none, current := at_,
    walk := .none }).notify .chainFault

/-- An address that names no block: 0 or not a multiple of 64 (R141, R145). -/
def misaligned (addr : BitVec 64) : Bool := addr.toNat % 64 != 0

/-- The next address of the block left (R145, R164). -/
def State.followNext (s : State) (c : Chain) (addr : BitVec 64) : State :=
  if addr = 0#64 then s.park c .atEnd
  else if misaligned addr then s.enterFault c .align addr
  else s.enterBlock c addr

/-- The chain reads its current block's next address afresh (R145). -/
def State.readNext (s : State) (c : Chain) : State := s.setCtx c { s.ctx c with walk := .next }

/-! ## Finishing a request block (R138, R139) -/

/-- The final header write of a request block: status and close cause, then count and sequence
numbers, then the state (R139, R192). -/
def finishWrites (c : Chain) (block : BitVec 64) (bad : Bool) (cause : CloseCause)
    (count first last state : Nat) (notify leave : Bool) : List HostWrite :=
  [plainWrite c block (block.toNat + 10) (u8 (if bad then 1 else 0) ++ u8 cause.code),
   plainWrite c block (block.toNat + 20) (countsBytes count first last),
   { chain := c, block := block, addr := block.toNat + 8, bytes := u8 state, ends := .final notify leave }]

/-- The control chain finishes its block and waits for the write to leave it (R139, R145). -/
def State.finishControl (s : State) (bad : Bool) (cause : CloseCause) (state : Nat) (leave : Bool) : State :=
  let b := s.ctl.block
  s.post (finishWrites .control s.ctl.ctx.current bad cause b.count 0 0 state b.notify leave)

/-- The control chain after a slot of `len` bytes at `off`: the next slot, or the block's finish
(R148, R139). -/
def State.advanceControl (s : State) (off len : Nat) : State :=
  if off + len ≥ s.ctl.block.used then
    (s.finishControl false .none blockDone true).setCtx .control
      { s.ctl.ctx with walk := .finishing none }
  else s.setCtx .control { s.ctl.ctx with walk := .slotHead (off + len) }

/-- A STOP is carried out after the slot of `len` bytes at `off` (R143): a block walked to its used value
is finished DONE, another one PARTIAL, and the chain is INACTIVE. -/
def State.stopAtSlot (s : State) (off len : Nat) : State :=
  (if off + len ≥ s.ctl.block.used then s.finishControl false .none blockDone false
   else s.finishControl false .stop blockPartial false).setCtx .control
    { s.ctl.ctx with state := .inactive, remembered := false, walk := .none }

/-- The control chain after the answer to a slot of `len` bytes at `off`. -/
def State.afterSlot (s : State) (off len : Nat) : State :=
  match s.ctl.ctx.walk with
  | .lastSlot .. => s.stopAtSlot off len
  | _ => s.advanceControl off len

/-- One more slot of the control block has a final status (R138). -/
def State.countControl (s : State) : State :=
  { s with ctl := { s.ctl with block := { s.ctl.block with count := s.ctl.block.count + 1 } } }

/-! ## Event blocks in flight (R157) -/

/-- The block is finished at this instant: the walk has left it and nothing of it is outstanding. -/
def EvtBlock.finished (b : EvtBlock) : Bool := b.left && b.outstanding == 0

/-- The finishing writes of an event block (R157). -/
def EvtBlock.writes (b : EvtBlock) (cause : CloseCause) (state : Nat) : List HostWrite :=
  finishWrites .event b.addr b.bad cause b.count (b.low.getD 0) (b.high.getD 0) state b.notify false

/-- The blocks that are finished leave the list; one whose slot read failed leaves it unwritten. DESIGN CHOICE:
a block of which nothing is outstanding when the walk leaves it is finished then, even where an earlier block
still has entries outstanding (R157; log entry 46). -/
def State.finishEvent (s : State) : State :=
  let gone := s.evt.blocks.filter EvtBlock.finished
  ({ s with evt := { s.evt with blocks := s.evt.blocks.filter fun b => !b.finished } } : State).post
    ((gone.filter fun b => !b.unfinished).flatMap fun b => b.writes .none blockDone)

/-- The entries outstanding on the event chain (R144, R153). -/
def State.outstanding (s : State) : Nat := (s.evt.blocks.map EvtBlock.outstanding).sum

/-- The last block of the list, the one the walk is in, changed. -/
def mapLast (f : EvtBlock → EvtBlock) : List EvtBlock → List EvtBlock
  | [] => []
  | [b] => [f b]
  | b :: c :: bs => b :: mapLast f (c :: bs)

def State.mapCurrent (s : State) (f : EvtBlock → EvtBlock) : State :=
  { s with evt := { s.evt with blocks := mapLast f s.evt.blocks } }

/-- The used value of the block the event walk is in. -/
def State.eventUsed (s : State) : Nat :=
  match s.evt.blocks.getLast? with
  | some b => b.used
  | none => 0

/-- The event walk leaves its block (R145). -/
def State.leaveEvent (s : State) : State :=
  (s.mapCurrent fun b => { b with left := true }).finishEvent.readNext .event

/-- The event chain after a slot of `len` bytes at `off` (R148, R145). -/
def State.advanceEvent (s : State) (off len : Nat) : State :=
  if off + len ≥ s.eventUsed then s.leaveEvent
  else s.setCtx .event { s.evt.ctx with walk := .slotHead (off + len) }

/-- A STOP of the event chain finishes (R144): the current block, left with unwalked slots, is
finished PARTIAL, and the chain is INACTIVE. R144 does not say whether it waits for the PARTIAL or DONE
write to be sent: the model is INACTIVE at once, with the write in flight (log entry 23). -/
def State.finishStop (s : State) : State :=
  let gone := s.evt.blocks.filter fun b => !b.left
  (({ s with evt := { s.evt with blocks := s.evt.blocks.filter fun b => b.left } } : State).post
    (gone.flatMap fun b => b.writes .stop blockPartial)).setCtx .event
    { s.evt.ctx with state := .inactive, walk := .none }

/-! ## Slots (R148 to R150, R153) -/

/-- The minimum length of a slot of a kind on a chain; none where the kind is not defined for it
(10.4). A STAMP's own minimum adds its payload (R193). -/
def minLength (c : Chain) (kind : Nat) : Option Nat :=
  match c, kind with
  | .control, 0x01 => some 64
  | .control, 0x02 => some 40
  | .control, 0x03 => some 40
  | .control, 0x04 => some 32
  | .control, 0x05 => some 32
  | .control, 0x06 => some 32
  | .control, 0x07 => some 48
  | .control, 0x08 => some 88
  | .control, 0x09 => some 32
  | .control, 0x0A => some 32
  | .control, 0x0B => some 64
  | .control, 0x0C => some 32
  | .control, 0x0D => some 72
  | .control, 0x0E => some 432
  | .control, 0x0F => some 56
  | .event, 0x81 => some 56
  | .event, 0x82 => some 64
  | .event, 0x83 => some 56
  | _, _ => none

/-- CHE's checks of a slot before its owner sees it (R150): an undefined kind, a length too short. -/
def slotRefusal (c : Chain) (h : SlotHead) : Option SlotStatus :=
  match minLength c h.kind.toNat with
  | none => some .kind
  | some n => if h.length.toNat < n then some .range else none

/-- A slot is malformed (R149). -/
def malformedSlot (off used len : Nat) : Bool :=
  decide (len < 16) || len % 8 != 0 || decide (off + len > used)

/-- The chain may go on with a host read that has completed (R186: none while a CHAINS scope waits). -/
def State.walking (s : State) (c : Chain) : Bool := (s.ctx c).state == .active && !s.halted

/-- The slot the control chain is at, and whether it is still to be taken. -/
def State.atSlot (s : State) : Option (Nat × SlotHead) :=
  match s.ctl.ctx.walk with
  | .slot off h => if s.walking .control then some (off, h) else none
  | .lastSlot off h => if s.walking .control then some (off, h) else none
  | _ => none

/-- A slot of the control chain is answered at its take with a status of CHE's (R150). -/
def State.refuseControl (s : State) (off : Nat) (h : SlotHead) (st : SlotStatus) : State :=
  (s.post [statusWrite .control s.ctl.ctx.current off st]).countControl.afterSlot off h.length.toNat

/-- The event chain may take its next slot (R153). DESIGN CHOICE: it may take several slots in one oscillator
period, which then share a stamp (R155; log entry 45). -/
def State.mayTakeEvent (s : State) : Bool :=
  s.evt.ctx.state == .active && decide (s.evt.fifo.length < Config.engineDepth)
    && decide (s.outstanding < Config.engineDepth)
    && decide (s.pst.records.length < s.pst.params.high) && !s.halted

/-- A slot of the event chain is answered at its take with a status of CHE's (R150, R154). -/
def State.refuseEvent (s : State) (off : Nat) (h : SlotHead) (st : SlotStatus) : State :=
  ((s.post [statusWrite .event s.evt.ctx.current off st]).mapCurrent
    fun b => { b with count := b.count + 1 }).advanceEvent off h.length.toNat

/-- The control slot that CHE's checks refuse and that may be taken, with its status. A take waits for the
oscillator (R190). -/
def State.controlRefusal (s : State) : Option (Nat × SlotHead × SlotStatus) :=
  match s.atSlot with
  | some (off, h) => if s.osc then (slotRefusal .control h).map fun st => (off, h, st) else none
  | none => none

/-- The event slot that CHE's checks refuse and that may be taken (R153), with its status. -/
def State.eventRefusal (s : State) : Option (Nat × SlotHead × SlotStatus) :=
  match s.evt.ctx.walk with
  | .slot off h =>
    if s.osc && s.mayTakeEvent then (slotRefusal .event h).map fun st => (off, h, st) else none
  | _ => none

/-- A slot that CHE's checks refuse is answered as soon as the chain may take it (R150, R153). -/
def State.slotDue (s : State) : Bool := s.controlRefusal.isSome || s.eventRefusal.isSome

def State.settleControl (s : State) : State :=
  match s.controlRefusal with
  | some (off, h, st) => s.refuseControl off h st
  | none => s

def State.settleEvent (s : State) : State :=
  match s.eventRefusal with
  | some (off, h, st) => s.refuseEvent off h st
  | none => s

/-! ## The capture chain (R167, R168) -/

/-- The close write of a capture block (R168, R192): status and close cause, used, count and
sequence numbers, then DONE. -/
def closeWrites (b : OpenBlock) (cause : CloseCause) : List HostWrite :=
  [plainWrite .capture b.addr (b.addr.toNat + 10) (u8 0 ++ u8 cause.code),
   plainWrite .capture b.addr (b.addr.toNat + 16)
     (leBytes 4 b.used ++ countsBytes b.count b.first b.last),
   { chain := .capture, block := b.addr, addr := b.addr.toNat + 8, bytes := u8 blockDone,
     ends := .captureDone }]

/-- The open block closes (R167): the flush timer is disarmed, the open block context is empty from
the start of the close write (R168). -/
def State.closeBlock (s : State) (b : OpenBlock) (cause : CloseCause) : State :=
  ({ s with
    pst := { s.pst with block := none, flushAt := none }
    cap := { s.cap with closing := some { notify := b.notify } } } : State).post (closeWrites b cause)

/-- The BAD_BLOCK write of a capture block (R163, R192). -/
def badCaptureWrites (addr : BitVec 64) : List HostWrite :=
  [plainWrite .capture addr (addr.toNat + 10) (u8 1 ++ u8 0),
   plainWrite .capture addr (addr.toNat + 16) (leBytes 4 0 ++ countsBytes 0 0 0),
   { chain := .capture, block := addr, addr := addr.toNat + 8, bytes := u8 blockDone,
     ends := .captureDone }]

/-! ## Failed accesses (R147, R164, R170, R182) -/

/-- The chain waits for a host read it has issued, the rest of the slot it is at included (R151, step 1). -/
def ChainCtx.readOpen (x : ChainCtx) : Bool :=
  x.state == .active && (match x.walk with
    | .header => true
    | .slotHead _ => true
    | .slot .. => true
    | .lastSlot .. => true
    | .next => true
    | _ => false)

/-- The walk, whether or not a STOP waits for its slot. -/
def Walk.place : Walk → Walk
  | .lastSlot off h => .slot off h
  | w => w

/-- The chain, `x` before, has issued a host read to come to `y`: it stands at another place, or it read
its parked point again for a remembered RESUME (R142). The rest of a slot is a read of its own, issued when
the head has come (R151, step 1): with bus mastering disabled it fails at that issue (R182; the model's
choice, log entry 7). -/
def ChainCtx.issues (x y : ChainCtx) : Bool :=
  y.readOpen && !(x.readOpen && x.walk.place == y.walk.place && !(x.remembered && !y.remembered))

/-- The event walk was reading a slot. -/
def ChainCtx.atSlot (x : ChainCtx) : Bool :=
  match x.walk with
  | .slotHead _ => true
  | .slot .. => true
  | _ => false

/-- A failed read (R147, R164). A TAKEN event block whose slot read failed counts as left. -/
def State.readFault (s : State) (c : Chain) : State :=
  let s1 := if c = .event ∧ s.evt.ctx.atSlot then
      (s.mapCurrent fun b => { b with left := true, unfinished := true }).finishEvent
    else s
  s1.enterFault c .readError (s1.ctx c).current

/-- The chain's oldest write in flight has failed. The ones behind it are abandoned, but for those that
leave TAKEN where the rule has blocks and slots keep it (R147). -/
def State.dropWrites (s : State) (c : Chain) : State :=
  { s with posted := (s.posted.eraseP fun w => w.chain == c).filter fun w =>
      w.chain != c || (s.ep.sends && w.marksTaken) }

/-- The chain's oldest write in flight. -/
def State.failing (s : State) (c : Chain) : Option HostWrite := s.posted.find? fun w => w.chain == c

/-- The block of the chain's oldest write in flight. -/
def State.failingBlock (s : State) (c : Chain) : BitVec 64 :=
  match s.failing c with
  | some w => w.block
  | none => (s.ctx c).current

/-- That write is a DONE write for which a CHAINS scope waits (R173). -/
def State.doneFails (s : State) : Bool :=
  s.halted && (match s.failing .capture with | some w => w.ends == .captureDone | none => false)

/-- A failed write (R147, R170). A failed DONE write for which a CHAINS scope waits sets no fault
(R173). -/
def State.writeFault (s : State) (c : Chain) : State :=
  let b := s.failingBlock c
  let s1 := s.dropWrites c
  match c with
  | .control => s1.enterFault .control .writeError b
  | .event =>
    ({ s1 with evt := { s1.evt with
        fifo := s1.evt.fifo.map fun e => { e with writeBack := false }
        blocks := []
        writeBacks := [] } } : State).enterFault .event .writeError b
  | .capture =>
    let s2 : State := { s1 with
      pst := { s1.pst with placed := 0, block := none, flushAt := none }
      cap := { s1.cap with closing := none } }
    if s.doneFails then s2 else s2.enterFault .capture .writeError b

def allChains : List Chain := [.control, .event, .capture]

/-- A write is in flight that the endpoint cannot send (R182). -/
def State.writesFail (s : State) : Bool := !s.ep.sends && !s.posted.isEmpty

/-- Writes that cannot be sent fail. -/
def State.failWrites (s : State) : State :=
  if s.writesFail then
    allChains.foldl (fun s c => if s.posted.any (fun w => w.chain == c) then s.writeFault c else s) s
  else s

/-- Reads issued while bus mastering is disabled fail at their issue. `old`: the part before the command. -/
def State.failReads (old s : State) : State :=
  if s.ep.busMaster then s
  else allChains.foldl (fun s c => if (old.ctx c).issues (s.ctx c) then s.readFault c else s) s

/-- Accesses that cannot be sent fail at their issue (R182). -/
def State.busCheck (old s : State) : State := old.failReads s.failWrites

/-! ## The effects of the CHAINS and AUCTIONS scopes (R158, R173, R121) -/

/-- A chain context at the effect instant: the start address and nothing else is kept. -/
def ChainCtx.reset (x : ChainCtx) : ChainCtx :=
  { ChainCtx.powerOn with start := x.start, current := x.start }

/-- EVT at the effect instant. -/
def EVT.reset (e : EVT) : EVT := { ctx := e.ctx.reset, fifo := [], blocks := [], writeBacks := [] }

/-- The DISCARD record for the records PST holds (R173, step 3), stamped after the work of the period (R2,
R36), which finds the chains reset (R11). -/
def State.discardRecords (s : State) : State :=
  match s.pst.records.head?, s.pst.records.getLast? with
  | some first, some last => s.left.createNow (.discard first.seq last.seq)
  | _, _ => s

/-- The accesses in flight are abandoned (R189), but that the TAKEN of a block or a slot in flight still
goes out, because these keep TAKEN in host memory (R158, R173). -/
def State.abandonWrites (s : State) : State :=
  { s with
    posted := []
    wire := (((if s.ep.sends then s.posted else []).filter HostWrite.marksTaken).map
      HostWrite.output).reverse ++ s.wire }

/-- The effect instant (R158, R173, R174). -/
def State.chainsEffect (s : State) : State :=
  let s1 : State := { s.abandonWrites with
    ctl := { s.ctl with ctx := s.ctl.ctx.reset }
    evt := s.evt.reset
    cap := { ctx := s.cap.ctx.reset, closing := none }
    pst := { s.pst with placed := 0, block := none, flushAt := none } }
  let s2 := s1.discardRecords.setRecords []
  if s.pst.records.isEmpty then
    ({ s2 with prt := { s2.prt with chains := .idle } } : State).notify .resetDone
  else { s2 with prt := { s2.prt with chains := .waitDiscard } }

/-- The effect instant has come (R186): no DONE write is under way any more, and the DISCARD record, if
one is due, can be stamped (R190). -/
def State.scopeDue (s : State) : Bool :=
  s.halted && s.cap.closing.isNone && (s.osc || s.pst.records.isEmpty)

def State.settleScope (s : State) : State := if s.scopeDue then s.chainsEffect else s

/-- Group and alarm records leave the agenda (R121, step 1). -/
def State.dropAuctionRecords (s : State) : State :=
  s.removeRecords fun e => e.body.isGroup || (match e.body with | .alarm .. => true | _ => false)

/-- The AUCTIONS scope's effect on ATU and the agenda (R121). -/
def State.resetAuctions (s : State) : State := { s.dropAuctionRecords with atu := ATU.powerOn }

/-- The ABANDON records of the groups that ran before the reset (R121, step 2), stamped after the work of the
period (R2, R36), which finds the groups reset (R11). -/
def State.resetAbandons (s : State) : State :=
  allGroups.foldl (State.resetAbandon s.atu) s.resetAuctions.left

/-- Some group is in CALL or CLOSING. -/
def State.someRunning (s : State) : Bool := allGroups.any fun g => (s.group g).running

/-- The AUCTIONS scope takes effect (R186): it completes at the release of the last ABANDON record it
created, or at once if it created none. Records are stamped only while the oscillator runs (R190). -/
def State.auctionsEffect (s : State) : State :=
  if !s.someRunning then
    ({ s.resetAuctions with prt := { s.prt with auctions := .idle } } : State).notify .resetDone
  else if s.osc then
    { s.resetAbandons with prt := { s.resetAbandons.prt with auctions := .waitAbandon } }
  else { s with prt := { s.prt with auctions := .held } }

/-- An AUCTIONS scope waited for the oscillator, which is back. -/
def State.auctionsDue (s : State) : Bool := s.osc && s.prt.auctions == .held

def State.settleAuctions (s : State) : State := if s.auctionsDue then s.auctionsEffect else s

/-! ## What cannot wait -/

/-- Nothing that the rules tie to the present instant is still to be done: no write that cannot be sent,
no ATU timer that was reached, no effect instant of a scope, no refused slot that may be answered.
Timers, effects that stamp and takes wait for the oscillator (R190). -/
def State.settled (s : State) : Bool :=
  !s.writesFail && !(s.osc && s.timersDue) && !s.scopeDue && !s.auctionsDue && !s.slotDue

/-- The same, and every write whose completion ends nothing has gone out. -/
def State.still (s : State) : Bool := s.settled && !s.plainDue

/-- The same, and nothing has read what work leaves that is still to be done. -/
def State.quiescent (s : State) : Bool := s.still && !s.owed

/-- The ATU timers that the counter reached run out, with the class that the period's work leaves (R96, R36);
that work is still to be done. -/
def State.runTimers (s : State) : State :=
  if s.timersDue then (s.settleTimers s.done.du.cls).promise .cls else s

/-- The same, while the oscillator runs (R190). -/
def State.tickTimers (s : State) : State := if s.osc then s.runTimers else s

/-- The effect instant of a CHAINS scope at its own command, after the timers that the counter reached: its
record reads now (R96). -/
def State.takeScope (s : State) : State :=
  if s.scopeDue then s.tickTimers.keep State.settleScope else s

/-- Scopes that are due take effect, and slots that CHE's checks refuse are answered. -/
def State.settleChains (s : State) : State :=
  let s := s.settleScope.settleAuctions
  s.busCheck s.settleControl.settleEvent

/-- What the rules tie to the present instant is done, but for the writes that can go out. -/
def State.settleRest (s : State) : State :=
  if s.settled then s else (s.keep State.failWrites).tickTimers.keep State.settleChains

/-- What the rules tie to the present instant is done before the next command is taken (log entry 5): the
writes that can go out are sent, and the rest follows. -/
def State.settle (s : State) : State :=
  if s.still then s else (if s.ep.sends then s.sendPlain else s).settleRest

/-- A command's effect once that is done. -/
def State.act (s : State) (k : State → State) : State := s.settle.keep k

/-- The same, where the command may issue host accesses. -/
def State.actIO (s : State) (k : State → State) : State := s.act fun v => v.busCheck (k v)

/-- A command that the part takes whenever it is powered: completed accesses. It may issue others. -/
def portedIO (s : State) (k : State → State) : Host.Outcome State Fault Refusal :=
  .next (if s.powered then s.actIO k else s)

/-- A register write: the host sees the window once the link is up and the endpoint configured (R188). -/
def windowed (s : State) (k : State → State) : Host.Outcome State Fault Refusal :=
  .next (if s.powered && s.ep.seen then s.act k else s)

/-- What the host does to the configuration space: it needs the link alone (R188). -/
def linked (s : State) (k : State → State) : Host.Outcome State Fault Refusal :=
  .next (if s.powered && s.ep.linkUp then s.act k else s)

/-- The same, where the command may issue host accesses. -/
def windowedIO (s : State) (k : State → State) : Host.Outcome State Fault Refusal :=
  .next (if s.powered && s.ep.seen then s.actIO k else s)

/-- A command that needs the oscillator: a stamp, a take, a release, a received symbol (R190). -/
def ticked (s : State) (k : State → State) : Host.Outcome State Fault Refusal :=
  .next (if s.powered && s.osc then s.act k else s)

/-- The same, where the command may issue host accesses. -/
def tickedIO (s : State) (k : State → State) : Host.Outcome State Fault Refusal :=
  .next (if s.powered && s.osc then s.actIO k else s)

end Sys2Proof.Machine
end

