-- ==== Sys2Proof/Machine/Operands.lean ====
section
/-!
DEFINITION. The operands of the requests: each body read into the settings it names, or nothing where
a field is outside its range (10.4, R193). The ranges stand in the owners' rules.
-/

namespace Sys2Proof.Machine

open Sys2Proof

/-- A yes-or-no byte reads as yes when it is non-zero (R193). The part writes yes back as 1 (`flag`, log
entry 39). -/
def yes (b : Byte) : Bool := b != 0#8

/-- The line of an index (R66 to R68). -/
def lineOf (index : Byte) : Option (Fin 4) :=
  if h : index.toNat < 4 then some ⟨index.toNat, h⟩ else none

/-- The alarm of an index (R117, R118). -/
def alarmOf (index : Byte) : Option (Fin 8) :=
  if h : index.toNat < 8 then some ⟨index.toNat, h⟩ else none

/-- A nanoseconds field is in range. -/
def hostTimeOk (t : HostTime) : Bool := decide (t.ns.toNat ≤ 999999999)

/-- The steering settings of a SET_STEERING body, each in its range (1.3, R22). -/
def steeringOf (p k policy : Byte) (limit threshold : BitVec 32) : Option Steering :=
  if p.toNat ≤ 8 ∧ k.toNat ≤ 16 ∧ policy.toNat ≤ 1 ∧ 1 ≤ limit.toNat ∧ limit.toNat ≤ 500000
      ∧ 1000 ≤ threshold.toNat ∧ threshold.toNat ≤ 1000000000 then
    some { p := p.toNat, k := k.toNat, limit := limit.toNat, threshold := threshold.toNat,
           never := policy.toNat == 1 }
  else none

/-- The evidence settings of a SET_TRACE_LIMITS body, each in its range (R38, R45). -/
def limitsOf (divergence floor rate : BitVec 32) : Option TraceLimits :=
  if 1 ≤ divergence.toNat ∧ divergence.toNat ≤ 1000000000 ∧ floor.toNat ≤ 1000000
      ∧ rate.toNat ≤ 500000 then
    some { divergence := divergence.toNat, floor := floor.toNat, rate := rate.toNat }
  else none

/-- The schedule of an ARM_GROUP body is in range (R97, test 3). -/
def scheduleOk (m : Byte) (w x : BitVec 32) (callOpen close : HostTime) : Bool :=
  hostTimeOk callOpen && hostTimeOk close && decide (w.toNat ≤ 300000) && decide (1 ≤ x.toNat)
    && decide (x.toNat ≤ 3600000) && decide (m.toNat ≤ 15)
    && (hostInstant callOpen).blt (hostInstant close)

/-- A check input's enable, filter and limit, if in range (R135). -/
def checkOf (c : CheckParams) : Option (Bool × CheckFilter × Nat) :=
  match CheckFilter.ofCode c.filter.toNat with
  | some f => if 1 ≤ c.limit.toNat ∧ c.limit.toNat ≤ 1000000 then some (yes c.enable, f, c.limit.toNat) else none
  | none => none

/-- The capture settings of a SET_CAPTURE_PARAMS body, each in its range (R172); the push set's bits 0,
14 and 15 name no kind (R193). -/
def captureOf (flush : BitVec 32) (high low push : BitVec 16) (notifyAll : Byte) : Option CaptureParams :=
  if 1000 ≤ flush.toNat ∧ flush.toNat ≤ 10000000 ∧ 1 ≤ high.toNat ∧ high.toNat ≤ 1000
      ∧ low.toNat < high.toNat ∧ push &&& 0xC001#16 = 0#16 then
    some { flush := flush.toNat, high := high.toNat, low := low.toNat, push := push,
           notifyAll := yes notifyAll }
  else none

/-- A group an event slot may name: 0 to 63, or 255 (R154). -/
def eventGroupOk (group : Byte) : Bool := decide (group.toNat < 64) || group.toNat == 255

/-- The push set holds a record kind (R166, step 4). -/
def pushes (push : BitVec 16) (b : Body) : Bool := push.getLsbD b.code

/-- A start address with one of its halves, or the whole, replaced (R181). -/
def replaceAddr (old : BitVec 64) (part : AddrPart) (value : BitVec 64) : BitVec 64 :=
  match part with
  | .whole => value
  | .low => (old &&& 0xFFFFFFFF00000000#64) ||| (value &&& 0x00000000FFFFFFFF#64)
  | .high => (old &&& 0x00000000FFFFFFFF#64) ||| (value <<< (32 : Nat))

end Sys2Proof.Machine
end

