-- ==== Sys2Proof/Machine/Merge.lean ====
section
/-!
DEFINITION. The sequencing merge (chapter 4): bounds, rank, the release rule, and one release with
every effect of R81.
-/

namespace Sys2Proof.Machine

open Sys2Proof

/-- The six sources of the merge (R73). -/
inductive Source | line (l : Fin 4) | engine | internal
  deriving DecidableEq, Repr

/-- The source field of a record (R73). -/
def Source.code : Source → Nat
  | .line l => l.val
  | .engine => 4
  | .internal => 5

/-- The sources, and the five that the tie pointer ranks. -/
def rankedSources : List Source := [.line 0, .line 1, .line 2, .line 3, .engine]
def allSources : List Source := .internal :: rankedSources

/-- The stamp of a source's head (R73). -/
def State.headStamp (s : State) (src : Source) : Option Stamp :=
  match src with
  | .line l => (s.line l).fifo.head?.map (·.stamp)
  | .engine => s.evt.fifo.head?.map (·.stamp)
  | .internal => s.sqm.agenda.head?.map (·.stamp)

/-- A line's bound (R54). -/
def Line.bound (l : Line) (now : Stamp) : Bound :=
  match l.fifo, l.frame with
  | e :: _, _ => .upTo e.stamp
  | [], some (.stamped t _) => .upTo t
  | [], _ => if l.opened then .upTo now else .never

/-- A source's bound (R54, R74). -/
def State.bound (s : State) (src : Source) : Bound :=
  match src with
  | .line l => (s.line l).bound s.now
  | .engine =>
    match s.evt.fifo with
    | e :: _ => .upTo e.stamp
    | [] => if s.evt.ctx.state = .active then .upTo s.now else .never
  | .internal =>
    match s.sqm.agenda with
    | e :: _ => .upTo (if e.stamp.blt s.now then e.stamp else s.now)
    | [] => .upTo s.now

/-- The rank among equal stamps (R76): I first, then in cyclic order from the tie pointer. -/
def rank (tie : Nat) (src : Source) : Nat :=
  match src with
  | .internal => 0
  | s => 1 + (s.code + 5 - tie) % 5

/-- Another source lets a head stamped `t` of source `src` pass (R77, test 3). -/
def State.yields (s : State) (src : Source) (t : Stamp) (other : Source) : Bool :=
  other == src || (s.bound other).laterThan t
    || (s.bound other == .upTo t && decide (rank s.sqm.tie src < rank s.sqm.tie other))

/-- The head of a source is releasable (R77, R80). -/
def State.releasable (s : State) (src : Source) : Bool :=
  match s.headStamp src with
  | none => false
  | some t =>
    !s.sqm.exhausted && decide (s.pst.records.length < Config.storeDepth)
      && (match src with | .line l => decide ((s.line l).acks.length < Config.ackDepth) | _ => true)
      && allSources.all (s.yields src t)

/-- The release of a head stamped `t` of a line or of E is contested (R79). -/
def State.contested (s : State) (src : Source) (t : Stamp) : Bool :=
  rankedSources.any fun o => o != src && s.bound o == .upTo t

/-- The tie pointer after a release (R79). -/
def State.tieAfter (s : State) (src : Source) (t : Stamp) : Nat :=
  if src ≠ .internal ∧ s.contested src t then (src.code + 1) % 5 else s.sqm.tie

/-- The number of a release is used: the counter is incremented, or exhausted (R80). -/
def SQM.useNumber (q : SQM) : SQM :=
  if q.next ≥ Config.seqMax then { q with exhausted := true } else { q with next := q.next + 1 }

def State.useNumber (s : State) : State := { s with sqm := s.sqm.useNumber }

/-- A record enters PST, and the tie pointer takes its value (R81, steps 5 and 6). -/
def State.append (s : State) (tie : Nat) (r : Record) : State :=
  ({ s with sqm := { s.sqm with tie := tie } } : State).setRecords (s.pst.records ++ [r])

/-! ## Lines (R60) -/

/-- The ORDER record of a FIFO entry (R82). -/
def FifoEntry.record (e : FifoEntry) (l : Fin 4) (seq : Nat) (tag : PhaseTag) : Record :=
  { body := .order e.kind e.payload, source := l.val, cls := e.cls, tag := tag, group := e.group,
    urgent := e.urgent, late := false, steppedOver := false, coalesced := false, count := 1, seq := seq,
    stamp := e.stamp, hostTag := e.tag }

/-- The release of the head of line `l`. -/
def State.releaseLine (s : State) (l : Fin 4) (e : FifoEntry) (rest : List FifoEntry) : State :=
  let seq := s.sqm.next
  let tie := s.tieAfter (.line l) e.stamp
  let p := s.useNumber.phaseTag e.group
  let s1 := p.1.setLine l { p.1.line l with fifo := rest }
  let s2 := s1.append tie (e.record l seq p.2)
  s2.setLine l ((s2.line l).respond (.ack e.tag seq e.stamp))

/-! ## The engine (R81, R156) -/

/-- The kind-specific bytes of a write-back, from offset 25 of the result area (10.4). -/
def Body.resultTail : Body → List Byte
  | .extend r => u8 r.used ++ pad 2 ++ time12? r.close
  | .abandon a => u8 a.phase.code ++ pad 6
  | _ => pad 7

/-- The status written back (R156). -/
def Body.resultStatus : Body → SlotStatus
  | .extend r => r.status
  | .abandon a => a.status
  | _ => .ok

/-- The result area of an event slot (10.4). -/
def Record.resultBytes (r : Record) : List Byte :=
  leBytes 8 r.seq ++ time12 r.stamp ++ u8 r.cls.code ++ pad 3 ++ u8 r.tag.code ++ r.body.resultTail

/-- The write-back of a record into its slot (R156, R193). -/
def EngineEntry.writes (e : EngineEntry) (r : Record) : List HostWrite :=
  [plainWrite .event e.block (bodyAddr e.block e.offset + 24) r.resultBytes,
   { statusWrite .event e.block e.offset r.body.resultStatus with ends := .writeBack }]

/-- CHE starts the write-back of a released entry whose mark is set (R156); none is started between a
CHAINS write and its effect (R186). -/
def State.writeBack (s : State) (e : EngineEntry) (r : Record) : State :=
  if e.writeBack && !s.halted then
    { s.post (e.writes r) with
      evt := { s.evt with writeBacks := s.evt.writeBacks ++ [{ block := e.block, seq := r.seq }] } }
  else s

/-- ATU's part of an engine release, and the record's body (R81, step 2). -/
def State.engineBody (s : State) (e : EngineEntry) : State × Body :=
  match e.kind with
  | .stamp => (s, .engine e.payload)
  | .extend => let p := s.releaseExtend e.group e.stamp; (p.1, .extend p.2)
  | .abandon => let p := s.releaseAbandon e.group; (p.1, .abandon p.2)

/-- The record of an engine entry (R82). -/
def EngineEntry.record (e : EngineEntry) (seq : Nat) (tag : PhaseTag) (body : Body) : Record :=
  { body := body, source := 4, cls := e.cls, tag := tag, group := e.group, urgent := false, late := false,
    steppedOver := false, coalesced := false, count := 1, seq := seq, stamp := e.stamp,
    hostTag := e.tag.toNat }

/-- The release of the engine FIFO's head. -/
def State.releaseEngine (s : State) (e : EngineEntry) (rest : List EngineEntry) : State :=
  let seq := s.sqm.next
  let tie := s.tieAfter .engine e.stamp
  let p := s.useNumber.engineBody e
  let q := p.1.phaseTag e.group
  let r := e.record seq q.2 p.2
  let s1 : State := { q.1 with evt := { q.1.evt with fifo := rest } }
  (s1.append tie r).writeBack e r

/-! ## The internal source (R81, steps 2 to 4) -/

/-- ATT fills a released ATTEST record and moves its range start (R130). -/
def State.fillAttest (s : State) (a : Attest) (seq : Nat) : State × Body :=
  ({ s with att := { s.att with rangeStart := if seq ≥ Config.seqMax then none else some (seq + 1) } },
   .attest { a with first := s.att.rangeStart.getD s.sqm.first, last := seq - 1 })

/-- ATU fills a released CLOSE record (R108). -/
def State.fillClose (s : State) (drawn : Stamp) (group seq : Nat) : Body :=
  let last := if seq = s.sqm.first then 0 else seq - 1
  match groupOf group with
  | some g => .close drawn (s.group g).callCount (s.group g).used last
  | none => .close drawn 0 0 last

/-- What the owner of an internal record does at its release, and the record's body. The draw of a
WINDOW is step 2; the release actions of the other group records come at the tag request of step 3
(R94), and the fills of ATTEST and CLOSE at step 4. -/
def State.internalBody (s : State) (e : Internal) (seq : Nat) : State × Body :=
  match e.body, groupOf e.group with
  | .window .., some g => s.drawWindow g e.stamp.epoch
  | .attest a, _ => s.fillAttest a seq
  | .close drawn .., some g => (s.releaseGroup g e.body, s.fillClose drawn e.group seq)
  | b, some g => (if b.isGroup then s.releaseGroup g b else s, b)
  | b, none => (s, b)

/-- The record of an internal entry (R82). -/
def Internal.record (e : Internal) (seq : Nat) (tag : PhaseTag) (body : Body) : Record :=
  { body := body, source := 5, cls := e.cls, tag := tag, group := e.group, urgent := false, late := e.late,
    steppedOver := e.steppedOver, coalesced := e.coalesced, count := e.count, seq := seq,
    stamp := e.stamp, hostTag := 0 }

def Body.isReset : Body → Bool
  | .abandon a => a.cause == .reset
  | _ => false

def Body.isDiscard : Body → Bool
  | .discard .. => true
  | _ => false

/-- The release of a scope's last record completes it (R174, R186). -/
def State.completeScopes (s : State) (body : Body) : State :=
  let s1 :=
    if body.isDiscard && s.prt.chains == .waitDiscard then
      ({ s with prt := { s.prt with chains := .idle } } : State).notify .resetDone
    else s
  if body.isReset && s1.prt.auctions == .waitAbandon && !s1.sqm.agenda.any (fun e => e.body.isReset) then
    ({ s1 with prt := { s1.prt with auctions := .idle } } : State).notify .resetDone
  else s1

/-- The release of the agenda's head. -/
def State.releaseInternal (s : State) (e : Internal) (rest : List Internal) : State :=
  let seq := s.sqm.next
  let s1 : State := { s.useNumber with sqm := { s.useNumber.sqm with agenda := rest } }
  let p := s1.internalBody e seq
  let q := p.1.phaseTag e.group
  (q.1.append s.sqm.tie (e.record seq q.2 p.2)).completeScopes e.body

/-! ## A release (R81) -/

/-- The release of a source's head, taken whole. -/
def State.releaseHead (s : State) (src : Source) : State :=
  match src with
  | .line l =>
    match (s.line l).fifo with
    | e :: rest => s.releaseLine l e rest
    | [] => s
  | .engine =>
    match s.evt.fifo with
    | e :: rest => s.releaseEngine e rest
    | [] => s
  | .internal =>
    match s.sqm.agenda with
    | e :: rest => s.releaseInternal e rest
    | [] => s

/-- The releasable head, at most one (R77). -/
def State.nextRelease (s : State) : Option Source := allSources.find? s.releasable

/-- A head stamped `t` of source `src` follows an internal record stamped `b` that is still to be created:
`t` is the later stamp, or the same one and the head is not internal (R75). -/
def Source.follows (src : Source) (b t : Stamp) : Bool := b.blt t || (b == t && src != .internal)

/-- The head about to be released follows an attestation boundary that this period's advance reached and
that has not been emitted yet. -/
def State.boundaryFirst (s : State) : Bool :=
  s.boundaryDue &&
    (match s.atInstant.nextRelease with
     | some src =>
       (match s.headStamp src with
        | some t => src.follows ⟨s.tb.epoch, s.att.nextBoundary, 0⟩ t
        | none => false)
     | none => false)

/-- Such a boundary is emitted before the release: every internal record is created with a stamp at or
after that of every record already released (R75). The second that ended with the boundary's carry is
judged first, and counts in the period that ends (R134; log entry 4). The record holds what the work of the
period leaves (R36, R125), which is still to be done. -/
def State.settleBoundary (s : State) : State :=
  if s.boundaryFirst then (s.settleAdvance s.done).promise .values else s

/-- The head about to be released is stamped after the time before a step or set, whose record this period's
work is still to create. -/
def State.workFirst (s : State) : Bool :=
  s.workDue &&
    (match s.atInstant.nextRelease with
     | some src => (match s.headStamp src with | some t => src.follows s.now t | none => false)
     | none => false)

/-- That work comes before such a release (R75). -/
def State.settleWork (s : State) : State := if s.workFirst then s.done else s

/-- The release of a source's head reads now: of a WINDOW, whose close may lie at or before it (R106), and of an
EXTEND (R109, R110). -/
def State.headReads (s : State) (src : Source) : Bool :=
  match src with
  | .line _ => false
  | .engine => (match s.evt.fifo with | e :: _ => e.kind == .extend | [] => false)
  | .internal => (match s.sqm.agenda with | e :: _ => e.body.isWindow | [] => false)

/-- The release of a source's head with the readings of `v`. -/
def State.releaseUnder (s v : State) (src : Source) : State :=
  { ({ s with tb := v.tb, du := v.du } : State).releaseHead src with tb := s.tb, du := s.du }

/-- TB and DU as the release of a source's head reads them: as the work of the period leaves them after that
release (R2, R36), which may open or close the step gate (R11). -/
def State.releaseReading (s : State) (src : Source) : State :=
  if s.headReads src then (s.busCheck (s.releaseUnder s.left src)).left else s.left

/-- The release of a source's head, before the work of the period, which is still to be done (R78; log entry
5). -/
def State.releaseFrom (s : State) (src : Source) : State :=
  let t := s.releaseUnder (s.releaseReading src) src
  if s.headReads src then t.reading.promise .time else t

/-- The releasable head is released, if there is one (R77). -/
def State.release (s : State) : State :=
  match s.atInstant.nextRelease with
  | some src => s.releaseFrom src
  | none => s

/-- One release of the merge, after what has to come first. -/
def State.releaseNext (s : State) : State := s.settleBoundary.settleWork.release

/-- RELEASE (R78, R81). -/
def execRelease (s : State) : Host.Outcome State Fault Refusal :=
  tickedIO s State.releaseNext

end Sys2Proof.Machine
end

