-- ==== Sys2Proof/Machine/Attestation.lean ====
section
/-!
DEFINITION. The attestation unit's events (chapter 6): boundaries and check inputs.
-/

namespace Sys2Proof.Machine

open Sys2Proof

/-- ATTEST_BOUNDARY (R124). It reads what the work of the period leaves (R36), which is still to be done: DU's
hand-overs count in the period that begins (R125). -/
def execAttestBoundary (s : State) : Host.Outcome State Fault Refusal :=
  ticked s fun s => if s.boundaryDue then (s.emitBoundary s.done).promise .values else s

/-- A pulse begins on an input (R132): its provisional latch and its filter are held. -/
def State.beginPulse (s : State) (input : CheckInput) : State :=
  s.setCheck input { s.check input with
    pulse := some { stamp := s.now, riseOwn := s.clock.own, filter := (s.check input).filter } }

/-- CHECK_RISING_TRANSITION (R132): now is read after the action instant of the period (R2). A new rise ends a
pulse that was not recognized. -/
def execCheckRisingTransition (input : CheckInput) (s : State) : Host.Outcome State Fault Refusal :=
  ticked s fun s =>
    if (s.check input).enabled && !s.edgeDue (s.check input) then
      s.acted.beginPulse input
    else s

/-- CHECK_PULSE_DROPPED (R132): the input went low before the filter's length had passed. -/
def execCheckPulseDropped (input : CheckInput) (s : State) : Host.Outcome State Fault Refusal :=
  ticked s fun s =>
    if s.edgeDue (s.check input) then s else s.setCheck input { s.check input with pulse := none }

/-- CHECK_EDGE_RECOGNIZED (R133): now is read after the action instant of the period (R2). -/
def execCheckEdgeRecognized (input : CheckInput) (s : State) : Host.Outcome State Fault Refusal :=
  ticked s fun s =>
    if s.edgeDue (s.check input) then s.acted.recognizeEdge input s.acted.now else s

/-- CHECK_SECOND_JUDGED (R134): at a carry of the ordinary advance into a new second. -/
def execCheckSecondJudged (s : State) : Host.Outcome State Fault Refusal :=
  ticked s fun s => if s.clock.carried then s.judgeSecond else s

end Sys2Proof.Machine
end

