-- ==== Sys2Proof/Machine/Auctions.lean ====
section
/-!
DEFINITION. The ATU timers as commands (chapter 5): each runs out in the oscillator period at which the
counter reaches its instant (R96), ahead of everything that reads now in that period, with the trace class
in force at that period. So these commands are taken before what `settle` would do. Each runs the
timer it names with the class that the work of the period leaves; that work is still to be done (R36; log
entry 5).
-/

namespace Sys2Proof.Machine

open Sys2Proof

/-- CALL_OPEN_TIMER (R101). -/
def execCallOpenTimer (group : Fin 64) (s : State) : Host.Outcome State Fault Refusal :=
  .next (if s.powered && s.osc && s.callOpenDue group then
    (s.runCallOpen group s.tb.epoch s.done.du.cls false false).promise .cls else s)

/-- CLOSE_WINDOW_TIMER (R103). -/
def execCloseWindowTimer (group : Fin 64) (s : State) : Host.Outcome State Fault Refusal :=
  .next (if s.powered && s.osc && s.windowDue group then
    (s.runWindow group s.done.du.cls false).promise .cls else s)

/-- CLOSE_TIMER (R107). -/
def execCloseTimer (group : Fin 64) (s : State) : Host.Outcome State Fault Refusal :=
  .next (if s.powered && s.osc && s.closeDue group then
    (s.runClose group s.done.du.cls false).promise .cls else s)

/-- ALARM_TIMER (R119). -/
def execAlarmTimer (alarm : Fin 8) (s : State) : Host.Outcome State Fault Refusal :=
  .next (if s.powered && s.osc && s.alarmDue alarm then
    (s.runAlarm alarm s.tb.epoch s.done.du.cls).promise .cls else s)

end Sys2Proof.Machine
end

