-- ==== Sys2Proof/Machine/Capture.lean ====
section
/-!
DEFINITION. The capture chain's packing and closing (8.3): RECORD_PLACE, FLUSH_TIMER_EXPIRY and
CAPTURE_DONE_COMPLETE, and the completion of host writes that all three chains share (9.3).
-/

namespace Sys2Proof.Machine

open Sys2Proof

/-! ## Completed writes (R182) -/

/-- The first write in flight whose completion brings something about. -/
def State.nextEnd (s : State) : Option HostWrite := s.posted.find? fun w => !w.isPlain

/-- The writes up to and with the first one whose completion brings something about are sent, in the
order in which they were issued. -/
def State.sendWrites (s : State) : State :=
  let plain := s.posted.takeWhile HostWrite.isPlain
  match s.posted.dropWhile HostWrite.isPlain with
  | w :: rest =>
    { s with posted := rest, wire := ((plain ++ [w]).map HostWrite.output).reverse ++ s.wire }
  | [] => s

/-! ## Placing a record (R166) -/

/-- The oldest unplaced record. -/
def State.unplaced (s : State) : Option Record := s.pst.records[s.pst.placed]?

/-- The open block with the record in it. -/
def OpenBlock.take (b : OpenBlock) (r : Record) : OpenBlock :=
  { b with used := b.used + r.length, count := b.count + 1,
           first := if b.count = 0 then r.seq else b.first, last := r.seq }

/-- The writes that place a record (R166, steps 1 and 2). -/
def OpenBlock.placeWrites (b : OpenBlock) (r : Record) : List HostWrite :=
  (if b.count = 0 then [takenWrite .capture b.addr] else [])
    ++ [plainWrite .capture b.addr (bodyAddr b.addr b.used) r.bytes]

/-- The record is placed, and the block closes with cause PUSH if its kind is in the push set (R166). -/
def State.placeRecord (s : State) (b : OpenBlock) (r : Record) : State :=
  let s1 := ({ s with pst := { s.pst with
      block := some (b.take r)
      placed := s.pst.placed + 1
      flushAt := if b.count = 0 then some (s.clock.own + ownUnits s.pst.params.flush)
        else s.pst.flushAt } } : State).post (b.placeWrites r)
  if pushes s.pst.params.push r.body then s1.closeBlock (b.take r) .push else s1

/-- RECORD_PLACE (R166): the oldest unplaced record is placed, or closes the block FULL. -/
def execRecordPlace (s : State) : Host.Outcome State Fault Refusal :=
  portedIO s fun s =>
    if s.cap.ctx.state == .active && !s.halted then
      match s.pst.block, s.unplaced with
      | some b, some r =>
        if b.used + r.length ≤ b.capacity then s.placeRecord b r else s.closeBlock b .full
      | _, _ => s
    else s

/-! ## The flush timer (R167) -/

/-- The flush timer of an open block that holds a record has run out. -/
def State.flushDue (s : State) : Bool :=
  match s.pst.block, s.pst.flushAt with
  | some b, some t => decide (0 < b.count) && decide (t ≤ s.clock.own) && !s.halted
  | _, _ => false

/-- The open block closes with cause FLUSH. -/
def State.flush (s : State) : State :=
  match s.pst.block with
  | some b => if s.flushDue then s.closeBlock b .flush else s
  | none => s

/-- FLUSH_TIMER_EXPIRY (R167). -/
def execFlushTimerExpiry (s : State) : Host.Outcome State Fault Refusal :=
  tickedIO s State.flush

/-! ## The completion of a DONE write (R168, R163, R169) -/

/-- After the DONE write the chain stops, or leaves the block; a CHAINS scope that waits for the write
takes effect next (R173). -/
def State.leaveCapture (s : State) : State :=
  if s.halted then s
  else match s.cap.ctx.state with
    | .stopping => s.setCtx .capture { s.cap.ctx with state := .inactive, walk := .none }
    | .active => s.readNext .capture
    | _ => s

/-- CAPTURE_DONE_COMPLETE (R168): the block's records leave PST, CAP_DONE is set if asked for. -/
def execCaptureDoneComplete (s : State) : Host.Outcome State Fault Refusal :=
  portedIO s fun s =>
    match s.nextEnd, s.cap.closing with
    | some w, some c =>
      if w.ends = .captureDone then
        let s1 := s.sendWrites
        let s2 : State := { s1 with
          cap := { s1.cap with closing := none }
          pst := { s1.pst with placed := 0 } }
        ((s2.setRecords (s.pst.records.drop s.pst.placed)).notifyIf
          (c.notify || s.pst.params.notifyAll) .capDone).leaveCapture
      else s
    | _, _ => s

end Sys2Proof.Machine
end

