-- ==== Sys2Proof/Machine/Walk.lean ====
section
/-!
DEFINITION. The walks of the three chains (7.1, 7.3, 7.4, 8.2): completed host reads, completed host
writes of the request chains, and accesses that fail.
-/

namespace Sys2Proof.Machine

open Sys2Proof

/-! ## Entering a block (R138, R163) -/

/-- The NOTIFY flag: bit 0; the others are ignored (R192). -/
def headerNotify (h : BlockHeader) : Bool := h.flags.getLsbD 0

/-- A good capacity (R138, R163). -/
def capacityOk (h : BlockHeader) : Bool :=
  decide (512 ≤ h.capacity.toNat) && decide (h.capacity.toNat ≤ 65536) && h.capacity.toNat % 8 == 0

/-- A LOADED request block is good (R138). -/
def requestBlockOk (h : BlockHeader) : Bool :=
  capacityOk h && decide (h.used.toNat ≤ h.capacity.toNat) && h.used.toNat % 8 == 0

/-- A bad request block: BAD_BLOCK with count and sequence fields 0, then DONE, whose completion leaves
the block by the next address of this same read (R138, R145). -/
def State.badRequest (s : State) (c : Chain) (h : BlockHeader) : State :=
  (s.post (finishWrites c (s.ctx c).current true .none 0 0 0 blockDone (headerNotify h) true)).setCtx c
    { s.ctx c with walk := .finishing (some h.next) }

/-- A good control block is written TAKEN and walked from its start; an empty one is finished at once. -/
def State.takeControlBlock (s : State) (h : BlockHeader) : State :=
  let s1 := s.post [takenWrite .control s.ctl.ctx.current]
  ({ s1 with ctl := { s1.ctl with
      block := { used := h.used.toNat, notify := headerNotify h, count := 0 } } } : State).advanceControl 0 0

/-- A good event block is written TAKEN, joins the blocks in flight, and is walked from its start
(R157). -/
def State.takeEventBlock (s : State) (h : BlockHeader) : State :=
  let s1 := s.post [takenWrite .event s.evt.ctx.current]
  ({ s1 with evt := { s1.evt with
      blocks := s1.evt.blocks ++
        [{ addr := s1.evt.ctx.current, notify := headerNotify h, used := h.used.toNat, outstanding := 0,
           left := false, count := 0, low := none, high := none, bad := false, unfinished := false }] } }
    : State).advanceEvent 0 0

/-- A good capture block becomes the open block; nothing is written to it yet (R163). -/
def State.openCapture (s : State) (h : BlockHeader) : State :=
  { s.setCtx .capture { s.cap.ctx with walk := .none } with
    pst := { s.pst with
      block := some { addr := s.cap.ctx.current, capacity := h.capacity.toNat, notify := headerNotify h,
                      used := 0, count := 0, first := 0, last := 0 } } }

/-- A bad capture block is written BAD_BLOCK and DONE; the walk leaves it at that write (R163). -/
def State.badCapture (s : State) (h : BlockHeader) : State :=
  let s1 := (s.post (badCaptureWrites s.cap.ctx.current)).setCtx .capture { s.cap.ctx with walk := .none }
  { s1 with cap := { s1.cap with closing := some { notify := headerNotify h } } }

/-- The walk has the header of the block it enters. -/
def State.enterHeader (s : State) (c : Chain) (h : BlockHeader) : State :=
  if h.state.toNat ≠ blockLoaded then s.park c .onBlock
  else match c with
    | .control => if requestBlockOk h then s.takeControlBlock h else s.badRequest .control h
    | .event => if requestBlockOk h then s.takeEventBlock h else s.badRequest .event h
    | .capture => if capacityOk h then s.openCapture h else s.badCapture h

/-- BLOCK_HEADER_READ (R138, R146, R163). -/
def execBlockHeaderRead (chain : Chain) (header : BlockHeader) (s : State) :
    Host.Outcome State Fault Refusal :=
  portedIO s fun s =>
    if s.walking chain && (s.ctx chain).walk == .header then s.enterHeader chain header else s

/-- NEXT_ADDRESS_READ (R145, R164). -/
def execNextAddressRead (chain : Chain) (address : BitVec 64) (s : State) :
    Host.Outcome State Fault Refusal :=
  portedIO s fun s =>
    if s.walking chain && (s.ctx chain).walk == .next then s.followNext chain address else s

/-! ## A slot's head (R148 to R150) -/

/-- MALFORMED is written if the slot's head lies within the used value (R149). -/
def malformedWrites (c : Chain) (block : BitVec 64) (off used : Nat) : List HostWrite :=
  if off + 16 ≤ used then [statusWrite c block off .malformed] else []

/-- A malformed control slot: the block is finished DONE with BAD_BLOCK (R149). -/
def State.malformedControl (s : State) (off : Nat) : State :=
  let s1 := (s.post (malformedWrites .control s.ctl.ctx.current off s.ctl.block.used)).countControl
  (s1.finishControl true .none blockDone true).setCtx .control { s1.ctl.ctx with walk := .finishing none }

/-- A control slot whose head has been read. A NEW slot waits for its take, which for a slot that CHE
refuses comes at once while the oscillator runs (R150, R190). -/
def State.controlHead (s : State) (off : Nat) (h : SlotHead) : State :=
  if malformedSlot off s.ctl.block.used h.length.toNat then s.malformedControl off
  else if h.status ≠ 0#8 then s.advanceControl off h.length.toNat
  else (s.setCtx .control { s.ctl.ctx with walk := .slot off h }).settleControl

/-- A malformed event slot: the block is left, and is finished BAD_BLOCK once nothing of it is
outstanding (R149, R157). -/
def State.malformedEvent (s : State) (off : Nat) : State :=
  ((s.post (malformedWrites .event s.evt.ctx.current off s.eventUsed)).mapCurrent
    fun b => { b with count := b.count + 1, bad := true }).leaveEvent

/-- An event slot whose head has been read. A NEW slot waits for its take (R153), which for a slot that
CHE refuses comes as soon as the chain may take it. -/
def State.eventHead (s : State) (off : Nat) (h : SlotHead) : State :=
  if malformedSlot off s.eventUsed h.length.toNat then s.malformedEvent off
  else if h.status ≠ 0#8 then s.advanceEvent off h.length.toNat
  else (s.setCtx .event { s.evt.ctx with walk := .slot off h }).settleEvent

/-- SLOT_HEAD_READ (R148). The capture chain has no slots. -/
def execSlotHeadRead (chain : Chain) (head : SlotHead) (s : State) : Host.Outcome State Fault Refusal :=
  portedIO s fun s =>
    if s.walking chain then
      match chain, (s.ctx chain).walk with
      | .control, .slotHead off => s.controlHead off head
      | .event, .slotHead off => s.eventHead off head
      | _, _ => s
    else s

/-! ## Completed writes of the request chains (R139, R156, R157) -/

/-- The write-back's block after its completion (R157). -/
def EvtBlock.written (b : EvtBlock) (seq : Nat) : EvtBlock :=
  { b with outstanding := b.outstanding - 1, count := b.count + 1,
           low := some (match b.low with | some n => min n seq | none => seq),
           high := some (match b.high with | some n => max n seq | none => seq) }

/-- The block of a write-back: the first in flight at its address with something outstanding. -/
def mapWritten (wb : WriteBack) : List EvtBlock → List EvtBlock
  | [] => []
  | b :: bs => if b.addr = wb.block ∧ 0 < b.outstanding then b.written wb.seq :: bs
               else b :: mapWritten wb bs

/-- The oldest write-back has completed: its entry is no longer outstanding, and the last one finishes a STOP
(R144). DESIGN CHOICE: between a CHAINS write and its effect instant too, where CHE issues no access (R186): the
chain is INACTIVE at once, and the blocks in flight get no DONE and no PARTIAL (log entry 48). -/
def State.completeWriteBack (s : State) (wb : WriteBack) (rest : List WriteBack) : State :=
  let s1 := ({ s with evt := { s.evt with
      writeBacks := rest, blocks := mapWritten wb s.evt.blocks } } : State).finishEvent
  if s1.evt.ctx.state = .stopping ∧ s1.outstanding = 0 then s1.finishStop else s1

/-- WRITE_BACK_COMPLETE (R156, R157, R144). -/
def execWriteBackComplete (s : State) : Host.Outcome State Fault Refusal :=
  portedIO s fun s =>
    match s.nextEnd, s.evt.writeBacks with
    | some w, wb :: rest => if w.ends = .writeBack then s.sendWrites.completeWriteBack wb rest else s
    | _, _ => s

/-- The notice of a finished request block (R139). -/
def finishedCause (c : Chain) : Cause :=
  match c with
  | .control => .ctlDone
  | .event => .evtDone
  | .capture => .capDone

/-- The walk leaves the block whose final write it waited for: a bad block by the next address of its
header read, a good control block by a fresh read (R138, R145). -/
def State.leaveFinished (s : State) (c : Chain) : State :=
  match (s.ctx c).state, (s.ctx c).walk with
  | .active, .finishing (some a) => s.followNext c a
  | .active, .finishing none => s.readNext c
  | _, _ => s

/-- BLOCK_STATE_WRITE_COMPLETE (R139, R145). -/
def execBlockStateWriteComplete (chain : Chain) (s : State) : Host.Outcome State Fault Refusal :=
  portedIO s fun s =>
    match s.nextEnd with
    | some w =>
      match w.ends with
      | .final notify leave =>
        if w.chain = chain then
          let s1 := s.sendWrites.notifyIf notify (finishedCause chain)
          if leave && !s1.halted then s1.leaveFinished chain else s1
        else s
      | _ => s
    | none => s

/-! ## Failed accesses (R147, R164, R170, R182) -/

/-- DMA_READ_FAILED: the read a chain waits for completes with an error status. -/
def execDmaReadFailed (chain : Chain) (s : State) : Host.Outcome State Fault Refusal :=
  portedIO s fun s => if (s.ctx chain).readOpen then s.readFault chain else s

/-- DMA_READ_TIMEOUT: no completion came within 50 ms of the request, measured by the endpoint. -/
def execDmaReadTimeout (chain : Chain) (s : State) : Host.Outcome State Fault Refusal :=
  portedIO s fun s => if (s.ctx chain).readOpen then s.readFault chain else s

/-- The first `n` writes in flight have gone out. -/
def State.sendFirst (s : State) (n : Nat) : State :=
  { s with
    posted := s.posted.drop n
    wire := ((s.posted.take n).map HostWrite.output).reverse ++ s.wire }

/-- The write behind the first `sent` ones in flight is the chain's, and no completion of theirs ends
anything. -/
def State.mayFail (s : State) (f : FailedWrite) : Bool :=
  (s.posted.take f.sent).all HostWrite.isPlain
    && (match s.posted[f.sent]? with | some w => w.chain == f.chain | none => false)

/-- DMA_WRITE_FAILED: some of the writes in flight go out, and the next one cannot be sent. So this command
is taken before the writes that can go out are sent (log entry 8). -/
def execDmaWriteFailed (failed : FailedWrite) (s : State) : Host.Outcome State Fault Refusal :=
  .next (if s.powered then
    s.settleRest.keep fun s =>
      if s.mayFail failed then (s.sendFirst failed.sent).writeFault failed.chain else s
  else s)

end Sys2Proof.Machine
end

