-- ==== Sys2Proof/Machine/Commands.lean ====
section
/-!
DEFINITION. The chain commands (7.2, 8.2, 8.3, 9.2): START, RESUME, STOP, an undefined code, and a write
of a chain address register.
-/

namespace Sys2Proof.Machine

open Sys2Proof

/-- A chain command is ignored, and IGNORED is set (R140). -/
def State.ignoreCommand (s : State) (c : Chain) : State := s.setCtx c { s.ctx c with ignored := true }

/-- A chain command acts unless a CHAINS scope is in progress (R179). -/
def State.command (s : State) (c : Chain) (k : State → State) : State :=
  if s.prt.chains ≠ .idle then s.ignoreCommand c else k s

/-! ## START (R141, R165) -/

/-- A chain begins a walk at its start address. -/
def State.startChain (s : State) (c : Chain) : State :=
  let x := s.ctx c
  if x.state = .inactive ∨ x.state = .fault then
    let s1 := s.setCtx c
      { x with state := .active, park := none, remembered := false, fault := none, ignored := false }
    if x.start = 0#64 ∨ misaligned x.start then s1.enterFault c .align x.start else s1.enterBlock c x.start
  else s.ignoreCommand c

/-- START (R141). -/
def execStart (chain : Chain) (s : State) : Host.Outcome State Fault Refusal :=
  windowedIO s fun s => s.command chain fun s => s.startChain chain

/-! ## RESUME (R142, R165) -/

/-- A parked chain re-reads its parked point; an ACTIVE one remembers the command. -/
def State.resumeChain (s : State) (c : Chain) : State :=
  let x := s.ctx c
  match x.state with
  | .parked =>
    s.setCtx c { x with state := .active, park := none, ignored := false,
                        walk := if x.park = some .atEnd then .next else .header }
  | .active => s.setCtx c { x with remembered := true, ignored := false }
  | _ => s.ignoreCommand c

/-- RESUME (R142). -/
def execResume (chain : Chain) (s : State) : Host.Outcome State Fault Refusal :=
  windowedIO s fun s => s.command chain fun s => s.resumeChain chain

/-! ## STOP (R143, R144, R169) -/

/-- A chain context after a STOP that is carried out at once. -/
def ChainCtx.stopped (x : ChainCtx) : ChainCtx :=
  { x with state := .inactive, park := none, remembered := false, fault := none, ignored := false,
           walk := .none }

/-- The final writes of a chain no longer end in the walk's leaving the block. -/
def State.forgetLeave (s : State) (c : Chain) : State :=
  { s with posted := s.posted.map fun w =>
      if w.chain = c then
        match w.ends with
        | .final notify _ => { w with ends := .final notify false }
        | _ => w
      else w }

/-- STOP on an ACTIVE control chain (R143): while a slot is being taken, it waits for the slot's answer. A
block TAKEN with unwalked slots is finished PARTIAL. -/
def State.stopWalking (s : State) : State :=
  match s.ctl.ctx.walk with
  | .slot off h => s.setCtx .control { s.ctl.ctx with walk := .lastSlot off h, ignored := false }
  | .lastSlot .. => s.setCtx .control { s.ctl.ctx with ignored := false }
  | .slotHead _ =>
    ((s.finishControl false .stop blockPartial false).forgetLeave .control).setCtx .control s.ctl.ctx.stopped
  | _ => (s.forgetLeave .control).setCtx .control s.ctl.ctx.stopped

/-- STOP on the control chain (R143). -/
def State.stopControl (s : State) : State :=
  match s.ctl.ctx.state with
  | .active => s.stopWalking
  | .parked => s.setCtx .control s.ctl.ctx.stopped
  | .fault => s.setCtx .control s.ctl.ctx.stopped
  | _ => s.ignoreCommand .control

/-- A STOP of the event chain that is carried out while it walks or is parked (R144). -/
def State.stopWalk (s : State) : State :=
  let s1 := (s.forgetLeave .event).setCtx .event
    { s.evt.ctx with state := .stopping, park := none, remembered := false, ignored := false, walk := .none }
  if s1.outstanding = 0 then s1.finishStop else s1

/-- STOP on the event chain (R144). -/
def State.stopEvent (s : State) : State :=
  match s.evt.ctx.state with
  | .active => s.stopWalk
  | .parked => s.stopWalk
  | .fault => s.setCtx .event s.evt.ctx.stopped
  | _ => s.ignoreCommand .event

/-- The capture chain enters STOPPING (R169). -/
def State.stoppingCapture (s : State) : State :=
  s.setCtx .capture
    { s.cap.ctx with state := .stopping, park := none, remembered := false, ignored := false, walk := .none }

/-- STOP on the capture chain (R165, R169). DESIGN CHOICE: a STOP that meets the write of BAD_BLOCK and DONE
of a bad block (R163) is taken as one that meets a close write in progress: STOPPING until that write
completes, and the next address is not read. R169 names no such case (log entry 23). -/
def State.stopCapture (s : State) : State :=
  match s.cap.ctx.state with
  | .active =>
    match s.pst.block, s.cap.closing with
    | some b, _ =>
      if b.count = 0 then
        { s.setCtx .capture s.cap.ctx.stopped with pst := { s.pst with block := none } }
      else s.stoppingCapture.closeBlock b .stop
    | none, some _ => s.stoppingCapture
    | none, none => s.setCtx .capture s.cap.ctx.stopped
  | .parked => s.setCtx .capture s.cap.ctx.stopped
  | .fault => s.setCtx .capture s.cap.ctx.stopped
  | _ => s.ignoreCommand .capture

/-- STOP on a chain. -/
def State.stopChain (s : State) (c : Chain) : State :=
  match c with
  | .control => s.stopControl
  | .event => s.stopEvent
  | .capture => s.stopCapture

/-- STOP (R143, R144, R169). -/
def execStop (chain : Chain) (s : State) : Host.Outcome State Fault Refusal :=
  windowedIO s fun s => s.command chain fun s => s.stopChain chain

/-! ## The rest of the chain registers -/

/-- CHAIN_COMMAND_UNDEFINED (R179). -/
def execChainCommandUndefined (chain : Chain) (s : State) : Host.Outcome State Fault Refusal :=
  windowed s fun s => s.ignoreCommand chain

/-- CHAIN_ADDR_WRITE (R181): in every chain state, and while a CHAINS scope is in progress. -/
def execChainAddrWrite (chain : Chain) (part : AddrPart) (value : BitVec 64) (s : State) :
    Host.Outcome State Fault Refusal :=
  windowed s fun s =>
    s.setCtx chain { s.ctx chain with start := replaceAddr (s.ctx chain).start part value }

end Sys2Proof.Machine
end

