-- ==== Sys2Proof/Machine/TimeBase.lean ====
section
/-!
DEFINITION. The oscillator (chapter 1, R190): OSCILLATOR_PERIOD with the work that belongs to the
period that ends, OSCILLATOR_STOP and OSCILLATOR_RETURN.
-/

namespace Sys2Proof.Machine

open Sys2Proof

/-- What the oscillator period that ends has reached and no command has yet brought about, in the order
of log entry 4: action instants, the missing-marker timer, a holdover second, the judgement of the
second that ended, check edges, the attestation boundary, the flush timer. -/
def State.closePeriod (s : State) : State :=
  let s := s.work.settleJudge
  let s := s.recognizeEdge .chk0 s.now
  let s := s.recognizeEdge .chk1 s.now
  let s := if s.boundaryDue then s.emitBoundary s else s
  s.flush

/-- One period of the oscillator: TB adds INC (R1), and own time rises by it (R3). -/
def State.advance (s : State) : State :=
  { s with
    clock := { own := s.clock.own + s.tb.inc, period := s.clock.period + 1, prev := s.instant,
               carried := s.tb.carries, read := false, promised := .nothing }
    tb := s.tb.advance }

/-- OSCILLATOR_PERIOD (R1). -/
def execOscillatorPeriod (s : State) : Host.Outcome State Fault Refusal :=
  tickedIO s fun s => s.closePeriod.advance

/-- The next period, with the ATU timers that run out in its update (R96). -/
def State.nextPeriod (s : State) : State := s.closePeriod.advance.runTimers

/-- OSCILLATOR_STOP (R190): now stands still, and nothing that advances with it runs out. What the last period
reached took effect in that period (R36, R96). -/
def execOscillatorStop (s : State) : Host.Outcome State Fault Refusal :=
  if s.powered && s.osc then tickedIO s fun s => { s.closePeriod with osc := false }
  else .next { s with osc := false }

/-- OSCILLATOR_RETURN (R190): the counter resumes from the value it held. -/
def execOscillatorReturn (s : State) : Host.Outcome State Fault Refusal :=
  .next { s with osc := true }

end Sys2Proof.Machine
end

