-- ==== Sys2Proof/Machine/Discipline.lean ====
section
/-!
DEFINITION. The reference line and the discipline's seconds (chapter 2).
-/

namespace Sys2Proof.Machine

open Sys2Proof

/-- DU's line receiver hears one symbol (R25): 32 well-formed ones in a row bring it IN_SYNC; four malformed
ones in a row, or the loss of signal, take it OUT_OF_SYNC. -/
def DU.hear (du : DU) (h : Heard) : DU × List Instr :=
  if du.inSync then
    match h with
    | .malformed => ({ du with malformed := du.malformed + 1 },
        if du.malformed + 1 = 4 then [.refSyncLost .malformedRun] else [])
    | .lost => (du, [.refSyncLost .signalLost])
    | .idle => ({ du with malformed := 0 }, [])
    | .wellFormed => ({ du with malformed := 0 }, [])
  else
    match h with
    | .malformed => ({ du with wellFormed := 0 }, [])
    | .lost => ({ du with wellFormed := 0 }, [])
    | _ => ({ du with wellFormed := du.wellFormed + 1 },
        if du.wellFormed + 1 = 32 then [.refSyncGained] else [])

/-- A symbol of the reference line as the source leaves it (R25): the counts advance, and the command that
the symbol brings joins the queue. Symbols have no row of the table (log entry 10). -/
def State.refHears (s : State) (h : Heard) : State :=
  if s.powered && s.osc then
    { s with du := (s.du.hear h).1, pending := s.pending ++ (s.du.hear h).2 }
  else s

/-- DU after 32 consecutive well-formed symbols (R25). -/
def DU.gainSync (du : DU) : DU := { du with inSync := true, wellFormed := 32, malformed := 0 }

/-- REF_SYNC_GAINED (R25). -/
def execRefSyncGained (s : State) : Host.Outcome State Fault Refusal :=
  ticked s fun s => if s.du.inSync then s else { s with du := s.du.gainSync }

/-- DU after a loss of sync (R25): a frame in progress is discarded, nothing else changes. That the discard
state of R27 ends as well is the model's choice (log entry 37). -/
def DU.loseSync (du : DU) (why : SyncLoss) : DU :=
  { du with inSync := false, receiver := .outside, wellFormed := 0,
            malformed := match why with | .malformedRun => 4 | .signalLost => 0 }

/-- REF_SYNC_LOST (R25). -/
def execRefSyncLost (why : SyncLoss) (s : State) : Host.Outcome State Fault Refusal :=
  ticked s fun s => if s.du.inSync then { s with du := s.du.loseSync why } else s

/-- What the receiver is inside of after a frame's end (R27). -/
def RefEnd.leaves (how : RefEnd) : RefReceiver :=
  match how with
  | .symbol25 => .discarding
  | .frameStart => .inFrame
  | .frameEnd => .outside
  | .idle => .outside
  | .malformed => .outside

/-- DU after a frame's end: the frame replaces the content of the latch, whatever its verdict (R27). -/
def DU.endFrame (du : DU) (data : List Byte) (how : RefEnd) (own : Nat) : DU :=
  { du with latch := some { fields := refFields data, verdict := refVerdict data how, endOwn := own },
            receiver := RefEnd.leaves how }

/-- DU at such a symbol in the discard state (R27): a frame end ends that state and is otherwise ignored, a
frame start ends it and begins a frame, and the others are dropped. -/
def DU.endDiscard (du : DU) (how : RefEnd) : DU :=
  match how with
  | .frameEnd => { du with receiver := .outside }
  | .frameStart => { du with receiver := .inFrame }
  | .symbol25 => du
  | .idle => du
  | .malformed => du

/-- The reference receiver at what ends a frame (R27). Outside the discard state a frame is in progress:
the start of a frame has no row of the table (log entry 11). -/
def DU.frameEvent (du : DU) (data : List Byte) (how : RefEnd) (own : Nat) : DU :=
  if du.receiver = .discarding then du.endDiscard how else du.endFrame data how own

/-- REF_FRAME_END (R27). -/
def execRefFrameEnd (data : List Byte) (how : RefEnd) (s : State) : Host.Outcome State Fault Refusal :=
  ticked s fun s => if s.du.inSync then { s with du := s.du.frameEvent data how s.clock.own } else s

/-- The own time is latched at a marker, after the action instants of its period (R2), and the second judged;
its work waits for its own action instant (R26). -/
def State.latchMarker (s : State) : State :=
  { s with du := s.du.judgeMarker s.now s.clock.own s.clock.period }

/-- MARKER (R26, R29, R31). -/
def execMarker (s : State) : Host.Outcome State Fault Refusal :=
  ticked s fun s => if s.du.inSync then s.acted.latchMarker else s

/-- MISSING_MARKER_EXPIRY (R30): a MISSING second, whose action instant is this one (R26), after one of a
marker in the same period, since its records read now (R2). -/
def execMissingMarkerExpiry (s : State) : Host.Outcome State Fault Refusal :=
  ticked s fun s => if s.missingDue then s.acted.missingSecond else s

/-- ACTION_INSTANT (R36): the work of the oldest judged second whose action instant has come. -/
def execActionInstant (s : State) : Host.Outcome State Fault Refusal :=
  ticked s fun s => if s.actionDue then s.takeAction else s

/-- HOLDOVER_SECOND (R41). -/
def execHoldoverSecond (s : State) : Host.Outcome State Fault Refusal :=
  ticked s fun s => if s.holdoverDue then s.holdoverSecond else s

end Sys2Proof.Machine
end

