-- ==== Sys2Proof/Machine/Events.lean ====
section
/-!
DEFINITION. The takes of event slots (R153, R154).
-/

namespace Sys2Proof.Machine

open Sys2Proof

/-- The slot the event chain may take, if CHE's checks passed it and it holds an event of this kind
(R153). -/
def State.eventSlot (s : State) (code : Nat) : Option (Nat × SlotHead) :=
  match s.evt.ctx.walk with
  | .slot off h => if s.mayTakeEvent && h.kind.toNat == code then some (off, h) else none
  | _ => none

/-- The entry of a slot taken now, with its write-back mark set (R154). -/
def State.engineEntry (s : State) (off : Nat) (h : SlotHead) (kind : EngineKind) (group : Byte)
    (payload : List Byte) : EngineEntry :=
  { stamp := s.now, cls := s.du.cls, kind := kind, group := group.toNat, tag := h.tag, payload := payload,
    block := s.evt.ctx.current, offset := off, writeBack := true }

/-- A slot that passes its checks is stamped and taken (R154): its entry joins the engine FIFO, TAKEN is
written, and the walk goes on. -/
def State.takeEvent (s : State) (off : Nat) (h : SlotHead) (e : EngineEntry) : State :=
  let s1 : State := { s with evt := { s.evt with fifo := s.evt.fifo ++ [e] } }
  ((s1.post [statusWrite .event s.evt.ctx.current off .taken]).mapCurrent
    fun b => { b with outstanding := b.outstanding + 1 }).advanceEvent off h.length.toNat

/-- An event slot taken: refused with RANGE if its fields fail their checks (R154). Its stamp and class are
read after the work of the period (R2, R36). -/
def takeEngine (s : State) (code : Nat) (kind : EngineKind) (group : Byte) (payload : List Byte)
    (ok : SlotHead → Bool) : Host.Outcome State Fault Refusal :=
  tickedIO s fun s =>
    match s.eventSlot code with
    | some (off, h) =>
      if ok h then s.left.takeEvent off h (s.left.engineEntry off h kind group payload)
      else s.refuseEvent off h .range
    | none => s

/-- STAMP's field checks (R154, R193): the group, the payload length, and the slot's own minimum. -/
def stampOk (group : Byte) (payloadLength : BitVec 16) (h : SlotHead) : Bool :=
  eventGroupOk group && decide (payloadLength.toNat ≤ 240)
    && decide (56 + roundUp8 payloadLength.toNat ≤ h.length.toNat)

/-- STAMP (R154). -/
def execStamp (group : Byte) (payloadLength : BitVec 16) (payload : List Byte) (s : State) :
    Host.Outcome State Fault Refusal :=
  takeEngine s 0x81 .stamp group payload (stampOk group payloadLength)

/-- EXTEND (R154). -/
def execExtend (group : Byte) (s : State) : Host.Outcome State Fault Refusal :=
  takeEngine s 0x82 .extend group [] fun _ => eventGroupOk group

/-- ABANDON (R154). -/
def execAbandon (group : Byte) (s : State) : Host.Outcome State Fault Refusal :=
  takeEngine s 0x83 .abandon group [] fun _ => eventGroupOk group

end Sys2Proof.Machine
end

