-- ==== Sys2Proof/Machine/Lines.lean ====
section
/-!
DEFINITION. The order lines (chapter 3): link changes, frames, responses and flow symbols.
-/

namespace Sys2Proof.Machine

open Sys2Proof

/-! ## The link (R49 to R51) -/

/-- A line hears one symbol (R49): in DOWN idles train it, and 64 in a row bring it UP; in UP four malformed
symbols in a row, or the loss of symbol lock, take it DOWN. -/
def Line.hear (l : Line) (h : Heard) (line : Fin 4) : Line × List Instr :=
  if l.up then
    match h with
    | .malformed => ({ l with malformedRun := l.malformedRun + 1 },
        if l.malformedRun + 1 = 4 then [.linkDown line .malformedRun] else [])
    | .lost => (l, [.linkDown line .lockLost])
    | .idle => ({ l with malformedRun := 0 }, [])
    | .wellFormed => ({ l with malformedRun := 0 }, [])
  else
    match h with
    | .idle => ({ l with training := l.training + 1 }, if l.training + 1 = 64 then [.linkUp line] else [])
    | _ => ({ l with training := 0 }, [])

/-- A symbol of the forward direction as the line partner leaves it (R49): the counts advance, and the
command that the symbol brings joins the queue. Symbols have no row of the table (log entry 10). The
receivers stand while the oscillator is stopped (R190). -/
def State.lineHears (s : State) (line : Fin 4) (h : Heard) : State :=
  if s.powered && s.osc then
    { s.setLine line ((s.line line).hear h line).1 with
      pending := s.pending ++ ((s.line line).hear h line).2 }
  else s

/-- A line whose link enters UP: a flow symbol is due, and the transmitter begins with it (R51). -/
def Line.linkUp (l : Line) : Line :=
  { l with up := true, training := 0, malformedRun := 0, flowDue := true, tx := .idle }

/-- LINK_UP (R49). -/
def execLinkUp (line : Fin 4) (s : State) : Host.Outcome State Fault Refusal :=
  ticked s fun s =>
    if (s.line line).up then s else (s.setLine line (s.line line).linkUp).notify .lineChange

/-- The aborted counter after an abort. -/
def Counters.abort (c : Counters) : Counters := { c with aborted := satAdd Config.count32 c.aborted 1 }

/-- A line whose link enters DOWN (R50): a frame in progress is aborted, the FIFO and the ack queue are
kept, a response partly sent is sent again later. -/
def Line.linkDown (l : Line) (why : LinkLoss) : Line :=
  { l with
    up := false
    training := 0
    malformedRun := match why with | .malformedRun => 4 | .lockLost => l.malformedRun
    frame := none
    discarding := false
    tx := .idle
    counters := if l.frame.isSome then l.counters.abort else l.counters }

/-- LINK_DOWN (R50). -/
def execLinkDown (line : Fin 4) (why : LinkLoss) (s : State) : Host.Outcome State Fault Refusal :=
  ticked s fun s =>
    if (s.line line).up then (s.setLine line ((s.line line).linkDown why)).notify .lineChange else s

/-! ## Frames (R52 to R59) -/

/-- A frame begins (R53): stamped under OPEN, marked for refusal under CLOSED. -/
def Line.begin (l : Line) (now : Stamp) (cls : TraceClass) : Line :=
  { l with frame := some (if l.opened then .stamped now cls else .closed), discarding := false }

/-- A frame begins on a line (R53). Under OPEN it reads now and the class, after the work of the period (R2,
R36); under CLOSED it reads neither. -/
def State.startFrame (s : State) (line : Fin 4) : State :=
  let s := if (s.line line).opened then s.left else s
  s.setLine line ((s.line line).begin s.now s.du.cls)

/-- FRAME_START (R53). -/
def execFrameStart (line : Fin 4) (s : State) : Host.Outcome State Fault Refusal :=
  ticked s fun s =>
    if (s.line line).up && (s.line line).frame.isNone then s.startFrame line else s

/-- The first check of R55 that fails, none if the frame passes all six. -/
def Line.refusal (l : Line) (mark : FrameMark) (data : List Byte) (malformed : Bool) (how : FrameEnd) :
    Option Refuse :=
  if mark = .closed then some .closed
  else if !frameLengthOk data malformed how then some .length
  else if !frameCrcOk data then some .crc
  else if frameKind data = 0 then some .kind
  else if 64 ≤ frameGroup data ∧ frameGroup data ≤ 254 then some .group
  else if Config.fifoDepth ≤ l.fifo.length then some .full
  else none

/-- The counter of a refusal reason (R69). -/
def Counters.refuse (c : Counters) (r : Refuse) : Counters :=
  match r with
  | .closed => { c with closed := satAdd Config.count32 c.closed 1 }
  | .length => { c with length := satAdd Config.count32 c.length 1 }
  | .crc => { c with crc := satAdd Config.count32 c.crc 1 }
  | .kind => { c with kind := satAdd Config.count32 c.kind 1 }
  | .group => { c with group := satAdd Config.count32 c.group 1 }
  | .full => { c with full := satAdd Config.count32 c.full 1 }

/-- A refused frame (R58): counted, and answered with REFUSE if the ack queue has room. -/
def Line.refuse (l : Line) (tag : Nat) (r : Refuse) : Line :=
  let l1 := { l with counters := l.counters.refuse r }
  if l.acks.length < Config.ackDepth then l1.respond (.refuse tag r) else l1

/-- The kind is one of the line's urgent kinds (R59). -/
def Line.urgent (l : Line) (kind : Nat) : Bool :=
  (l.urgentA != 0 && l.urgentA == kind) || (l.urgentB != 0 && l.urgentB == kind)

/-- The FIFO entry of an accepted frame (R59). -/
def Line.entry (l : Line) (t : Stamp) (cls : TraceClass) (data : List Byte) : FifoEntry :=
  { stamp := t, cls := cls, kind := frameKind data, group := frameGroup data, tag := frameTag data,
    payload := framePayload data, urgent := l.urgent (frameKind data) }

/-- An accepted frame (R59). -/
def Line.accept (l : Line) (e : FifoEntry) : Line :=
  { l with fifo := l.fifo ++ [e],
           counters := { l.counters with accepted := satAdd Config.count32 l.counters.accepted 1 } }

/-- A frame's end on a line: the frame is no longer in progress, and a runaway begins the discard
state (R52). -/
def Line.frameOver (l : Line) (how : FrameEnd) : Line :=
  { l with frame := none, discarding := how == .runaway }

/-- The end of line `line`'s frame in progress (R55, R58, R59). -/
def State.endFrame (s : State) (line : Fin 4) (mark : FrameMark) (data : List Byte) (malformed : Bool)
    (how : FrameEnd) : State :=
  let l := (s.line line).frameOver how
  match l.refusal mark data malformed how, mark with
  | some r, _ => s.setLine line (l.refuse (frameTag data) r)
  | none, .stamped t cls =>
    let e := l.entry t cls data
    ((s.setLine line (l.accept e)).flowLine line).notifyIf e.urgent .urgent
  | none, .closed => s

/-- FRAME_END (R52, R55). With no frame in progress, an EOF or an idle ends a discard state. -/
def execFrameEnd (line : Fin 4) (data : List Byte) (malformed : Bool) (how : FrameEnd) (s : State) :
    Host.Outcome State Fault Refusal :=
  ticked s fun s =>
    match (s.line line).frame with
    | some mark => s.endFrame line mark data malformed how
    | none =>
      if how = .eof ∨ how = .idle then s.setLine line { s.line line with discarding := false } else s

/-! ## The return direction (R61, R62, R64) -/

/-- RESPONSE_SENT (R61): the response being sent leaves the head of the ack queue. After an idle a response
can have been sent only if the idle had ended (R62). The transmitter stands while the oscillator is
stopped (log entry 28). -/
def execResponseSent (line : Fin 4) (s : State) : Host.Outcome State Fault Refusal :=
  ticked s fun s =>
    match (s.line line).tx, (s.line line).acks with
    | .idle, _ => s
    | _, r :: rest =>
      { s.setLine line (Line.choose { s.line line with acks := rest }) with
        wire := .response line r.bytes :: s.wire }
    | _, [] => s

/-- FLOW_SYMBOL_SENT (R64): the symbol carries the flow state in force, and the due mark clears. It follows
an idle, a response sent whole or another symbol, and stands in no response (R62). DESIGN CHOICE: the command
stands for the symbol from its first bit to its last, so its state is read and its mark cleared at one instant,
and a change of the flow state after it makes another symbol due (log entry 43). -/
def execFlowSymbolSent (line : Fin 4) (s : State) : Host.Outcome State Fault Refusal :=
  ticked s fun s =>
    if (s.line line).up && (s.line line).flowDue && (s.line line).tx != .response then
      { s.setLine line (Line.choose { s.line line with flowDue := false }) with
        wire := .flow line (s.line line).hold :: s.wire }
    else s

end Sys2Proof.Machine
end

