-- ==== Sys2Proof/Machine/Flags.lean ====
section
/-!
DEFINITION. The register window as bits (9.1, 10.2): what a read of each register returns, the commands
that a write of each register brings, and the endpoint's configuration settings.
-/

namespace Sys2Proof.Machine

open Sys2Proof

/-! ## Reads (R176 to R180): no effect on any state -/

/-- PART_ID (R191). -/
def partId : BitVec 32 := 0x44163D11#32

/-- PART_STATE (R178, R191). -/
def State.partState (s : State) : BitVec 32 :=
  BitVec.ofNat 32
    (s.du.state.code + (if s.du.cls = .degraded then 8 else 0)
      + (if s.tb.demand.isSome then 16 else 0) + 32 * s.pst.records.length + 65536 * s.tb.epoch)

/-- NOTICE and NOTICE_ENABLE (R183, R184): bits 31:15 read 0. -/
def State.noticeReg (s : State) : BitVec 32 := s.prt.notice.setWidth 32
def State.enableReg (s : State) : BitVec 32 := s.prt.enable.setWidth 32

/-- One chain's byte of a CHAIN_COMMAND read (R180). -/
def ChainCtx.byte (x : ChainCtx) : Byte :=
  BitVec.ofNat 8
    (x.state.code
      + 8 * (if x.state = .parked then (match x.park with | some k => k.code | none => 0) else 0)
      + 32 * (if x.ignored then 1 else 0)
      + 64 * (if x.state = .fault then (match x.fault with | some c => c.code | none => 0) else 0))

/-- CHAIN_COMMAND, read: one byte per chain (R180). -/
def State.chainReg (s : State) : BitVec 32 :=
  0#8 ++ s.cap.ctx.byte ++ s.evt.ctx.byte ++ s.ctl.ctx.byte

/-- RESET_SCOPE, read: the scopes in progress; LINES and FULL always read 0 (R185, R191). -/
def State.scopeReg (s : State) : BitVec 32 :=
  BitVec.ofNat 32 ((if s.prt.chains ≠ .idle then 2 else 0) + (if s.prt.auctions ≠ .idle then 4 else 0))

/-- A chain address register, read (R181). -/
def State.addrReg (s : State) (c : Chain) : BitVec 64 :=
  if (s.ctx c).state = .inactive then (s.ctx c).start else (s.ctx c).current

/-- A 32-bit read of the window at an aligned offset (R176, 10.2). DESIGN CHOICE: a chain address register's
own offset reaches its low half, bits 31:0, and the offset 4 bytes above it the high half, bits 63:32 (R181; log
entry 49). -/
def State.readWindow (s : State) (offset : Nat) : BitVec 32 :=
  match offset with
  | 0x00 => partId
  | 0x04 => s.partState
  | 0x08 => s.noticeReg
  | 0x0C => s.enableReg
  | 0x10 => s.chainReg
  | 0x14 => s.scopeReg
  | 0x20 => (s.addrReg .control).setWidth 32
  | 0x24 => (s.addrReg .control >>> (32 : Nat)).setWidth 32
  | 0x28 => (s.addrReg .event).setWidth 32
  | 0x2C => (s.addrReg .event >>> (32 : Nat)).setWidth 32
  | 0x30 => (s.addrReg .capture).setWidth 32
  | 0x34 => (s.addrReg .capture >>> (32 : Nat)).setWidth 32
  | _ => 0#32

/-! ## Writes as commands (R176, R179, R181, R183 to R185) -/

/-- The command in one field of a CHAIN_COMMAND write (R179, R191). -/
def chainField (c : Chain) (code : Nat) : List Instr :=
  match code with
  | 0 => []
  | 1 => [.start c]
  | 2 => [.resume c]
  | 3 => [.stop c]
  | _ => [.chainCommandUndefined c]

/-- The scopes of a RESET_SCOPE write: FULL alone if it is named (R185). -/
def scopeCommands (v : Nat) : List Instr :=
  if v / 8 % 2 = 1 then [.full]
  else (if v % 2 = 1 then [.lines] else []) ++ (if v / 2 % 2 = 1 then [.chains] else [])
    ++ (if v / 4 % 2 = 1 then [.auctions] else [])

/-- The commands that a 32-bit write of the window brings. DESIGN CHOICE: a chain address register's own offset
reaches its low half, and the offset 4 bytes above it the high half (R181; log entry 49). -/
def writeCommands32 (offset : Nat) (v : BitVec 32) : List Instr :=
  match offset with
  | 0x08 => [.noticeClear v]
  | 0x0C => [.noticeEnableWrite v]
  | 0x10 => chainField .control (v.toNat % 8) ++ chainField .event (v.toNat / 256 % 8)
      ++ chainField .capture (v.toNat / 65536 % 8)
  | 0x14 => scopeCommands v.toNat
  | 0x20 => [.chainAddrWrite .control .low (v.setWidth 64)]
  | 0x24 => [.chainAddrWrite .control .high (v.setWidth 64)]
  | 0x28 => [.chainAddrWrite .event .low (v.setWidth 64)]
  | 0x2C => [.chainAddrWrite .event .high (v.setWidth 64)]
  | 0x30 => [.chainAddrWrite .capture .low (v.setWidth 64)]
  | 0x34 => [.chainAddrWrite .capture .high (v.setWidth 64)]
  | _ => [.registerWriteIgnored { offset := offset, width := 4, value := v.setWidth 64 }]

/-- The commands that a write of the window brings, in the order in which they are taken. -/
def writeCommands (w : RegWrite) : List Instr :=
  if w.reaches then
    if w.width = 8 then
      [.chainAddrWrite (if w.offset = 0x20 then .control else if w.offset = 0x28 then .event else .capture)
        .whole w.value]
    else writeCommands32 w.offset (w.value.setWidth 32)
  else [.registerWriteIgnored w]

/-! ## The notice unit (R183, R184) -/

/-- A host write of NOTICE clears each bit written as one. -/
def State.clearNotices (s : State) (v : BitVec 32) : State :=
  { s with prt := { s.prt with notice := s.prt.notice &&& ~~~(v.setWidth 15) } }

/-- Set causes that a write newly enables. -/
def newlyEnabled (notice old new : BitVec 15) : Bool := notice &&& new &&& ~~~old != 0#15

/-- A host write of NOTICE_ENABLE: one message if it enables set causes. -/
def State.writeEnables (s : State) (v : BitVec 32) : State :=
  { s.message (newlyEnabled s.prt.notice s.prt.enable (v.setWidth 15)) with
    prt := { s.prt with enable := v.setWidth 15 } }

/-- The host unmasks the vector: a kept message is sent (log entry 27). -/
def State.unmask (s : State) : State :=
  ({ s with ep := { s.ep with masked := false, vectorPending := false } } : State).message
    (s.ep.masked && s.ep.vectorPending)

/-- The endpoint's link and configuration as the host and the link partner leave them (R182). The table
gives these settings no command but VECTOR_UNMASKED (log entry 6). Writes that could go out have gone out
before. `configured`: the host has configured the endpoint, which then stays so; `mask`: the host masks the
vector. -/
def State.withEndpointConfig (s : State) (linkUp configured busMaster msi mask : Bool) : State :=
  { (if s.ep.sends then s.sendPlain else s) with
    ep := { s.ep with
      linkUp := linkUp, configured := s.ep.configured || configured, busMaster := busMaster, msi := msi
      masked := s.ep.masked || mask } }

end Sys2Proof.Machine
end

