-- ==== Sys2Proof/Machine/Port.lean ====
section
/-!
DEFINITION. The port's own commands (chapter 9): notices, the interrupt vector, ignored writes; and the host's
reads of the window.
-/

namespace Sys2Proof.Machine

open Sys2Proof

/-! ## Reads of the window (R176): no effect on any state -/

/-- The part whose values a read of the window finds in force (R176): what the rules tie to the present instant
has taken effect (R96), and so has all that the period reached (R36, R37, R44, R133, R178), whether or not its
commands have been taken. A read has no effect, so these stay to be done (log entry 5). While the oscillator is
stopped the values are those last in force (R190). -/
def State.inForce (s : State) : State :=
  if s.osc then s.settle.busCheck s.settle.closePeriod else s.settle

/-- A read of `width` bytes at `offset` by the values of `s` (R176): none where the window does not accept the
read (log entry 34). A read narrower than 32 bits returns the addressed bytes of the 32-bit value; 64 bits are
read of a chain address register only. DESIGN CHOICE: an offset past the window's last byte, of which R176 does
not speak, reads 0 as an offset without a register does (log entry 42). -/
def State.readValue (s : State) (offset width : Nat) : Option (BitVec 64) :=
  if (width = 1 ∨ width = 2 ∨ width = 4) ∧ offset % width = 0 then
    some (BitVec.ofNat 64
      ((s.readWindow (offset / 4 * 4)).toNat / 256 ^ (offset % 4) % 256 ^ width))
  else if width = 8 then
    match offset with
    | 0x20 => some (s.addrReg .control)
    | 0x28 => some (s.addrReg .event)
    | 0x30 => some (s.addrReg .capture)
    | _ => none
  else none

/-- A read of the window by the host (R176): none while it cannot reach the window (R188). -/
def State.hostRead (s : State) (offset width : Nat) : Option (BitVec 64) :=
  if s.powered && s.ep.seen then s.inForce.readValue offset width else none

/-! ## Commands -/

/-- NOTICE_CLEAR (R183). -/
def execNoticeClear (value : BitVec 32) (s : State) : Host.Outcome State Fault Refusal :=
  windowed s fun s => s.clearNotices value

/-- NOTICE_ENABLE_WRITE (R184). -/
def execNoticeEnableWrite (value : BitVec 32) (s : State) : Host.Outcome State Fault Refusal :=
  windowed s fun s => s.writeEnables value

/-- VECTOR_UNMASKED (R184): an access to the configuration space. -/
def execVectorUnmasked (s : State) : Host.Outcome State Fault Refusal :=
  linked s State.unmask

/-- REGISTER_WRITE_IGNORED (R176): no effect on any state, whatever was written where. -/
def execRegisterWriteIgnored (_write : RegWrite) (s : State) : Host.Outcome State Fault Refusal :=
  .next s

end Sys2Proof.Machine
end

