-- ==== Sys2Proof/Machine/Requests.lean ====
section
/-!
DEFINITION. The take of a control slot (R151), and the owners' answers to the fifteen control requests.
-/

namespace Sys2Proof.Machine

open Sys2Proof

/-! ## The take of a control slot (R151) -/

/-- An owner's answer: the state it leaves, the status, and the result area's bytes (none where the
rule gives the outcome none; log entry 20). -/
structure Answer where
  state : State
  status : SlotStatus
  result : List Byte

/-- A request refused with a status changes no state. -/
def refused (s : State) (st : SlotStatus) : Answer := { state := s, status := st, result := [] }

/-- A request carried out. -/
def granted (s : State) (result : List Byte) : Answer := { state := s, status := .ok, result := result }

/-- The slot the control chain is at, if CHE's checks passed it and it holds a request of this kind. -/
def State.controlSlot (s : State) (code : Nat) : Option (Nat × SlotHead) :=
  match s.atSlot with
  | some (off, h) => if h.kind.toNat == code then some (off, h) else none
  | none => none

/-- The writes of an answer: the result area, then the status (R150, R151). -/
def answerWrites (block : BitVec 64) (off bodySize : Nat) (result : List Byte) (st : SlotStatus) :
    List HostWrite :=
  (if result.isEmpty then [] else
      [plainWrite .control block (bodyAddr block off + 16 + bodySize) result])
    ++ [statusWrite .control block off st]

/-- The outcome is written into the slot, the slot is counted, and the walk goes on, or the STOP that
waited for it is carried out (R151, R148, R143). DESIGN CHOICE: "written" is that the writes are issued, so
that the walk goes on, and the STOP is carried out, though they may not have been sent (log entry 47). -/
def State.answer (block : BitVec 64) (off : Nat) (h : SlotHead) (bodySize : Nat) (a : Answer) : State :=
  (a.state.post (answerWrites block off bodySize a.result a.status)).countControl.afterSlot off
    h.length.toNat

/-- A control request is handed to its owner at its take. -/
def takeControl (s : State) (code bodySize : Nat) (owner : State → Answer) :
    Host.Outcome State Fault Refusal :=
  tickedIO s fun s =>
    match s.controlSlot code with
    | some (off, h) => State.answer s.ctl.ctx.current off h bodySize (owner s)
    | none => s

/-! ## TB and DU (R18, R22, R45) -/

/-- The set of a legal SET_TIME (R18): R17's steps 1 to 3, 5 and 6, with the fraction set to 0. -/
def State.setTimeTo (s0 : State) (target : Instant) : State :=
  let s := s0.settleAdvance s0
  let pre := s.now
  let d : Int := (pre.instant.total : Int) - (target.total : Int)
  let epoch := epochAfter s.tb.epoch d
  let s1 := (s.abandonRunning pre s.du.cls).placeCounter target 0 epoch
  let s2 : State := { s1 with du := { s1.du with i := 0, c := 0 } }
  let s3 := s2.setInc.recordMove pre s.du.cls (saturate d) none (.set pre (target.at epoch))
  (s3.afterMove pre.instant target d).handOver.reading

/-- The status with which SET_TIME is refused (R18). -/
def State.timeRefusal (s : State) (target : HostTime) : Option SlotStatus :=
  if s.du.state ≠ .free then some .state
  else if !hostTimeOk target then some .range
  else if (hostInstant target).blt s.instant && decide (s.tb.epoch ≥ Config.epochMax) then some .limit
  else none

/-- SET_TIME's answer (R18). -/
def State.setTime (s : State) (target : HostTime) : Answer :=
  match s.timeRefusal target with
  | some st => refused s st
  | none =>
    let t := s.setTimeTo (hostInstant target)
    granted t (time16 s.now ++ time16 ((hostInstant target).at t.tb.epoch))

/-- The part at the take of a SET_TIME: after the work of the period (R36), and in a period in which now has
been read, where a legal one comes with the next period, so that every reading of now in one period returns
the same (R2). DESIGN CHOICE (log entry 40). -/
def State.atSetTime (s : State) (target : HostTime) : State :=
  let v := s.done
  if v.clock.read && (v.timeRefusal target).isNone then v.nextPeriod.done else v

/-- SET_TIME (R18). -/
def execSetTime (target : HostTime) (s : State) : Host.Outcome State Fault Refusal :=
  takeControl s 0x01 16 fun s => (s.atSetTime target).setTime target

/-- C after new steering settings (R22, item 3); `i`: the clamped integrator. -/
def steeredC (st : DState) (c i : Int) (limit : Nat) : Int :=
  match st with
  | .holdover => -i
  | .reacquiring => -i
  | .free => 0
  | .acquiring => 0
  | .locked => clamp c limit
  | .suspect => clamp c limit

/-- The effects of a SET_STEERING in range (R22). -/
def State.steer (s : State) (x : Steering) : State :=
  let i := clamp s.du.i x.limit
  let c := steeredC s.du.state s.du.c i x.limit
  let s1 : State := { s with du := { s.du with steering := x, i := i, c := c } }
  let s2 := if c ≠ s.du.c then s1.setInc else s1
  let s3 : State := { s2 with tb := { s2.tb with demand := if x.never then none else s2.tb.demand } }
  s3.createLeft (.clock 0 none
    (.params (some { old := s.du.steering, new := x, i := i, c := c }) none))

/-- SET_STEERING's answer (R22). The take precedes the work of its period that is still to be done. -/
def State.setSteering (s : State) (p k policy : Byte) (limit threshold : BitVec 32) : Answer :=
  match steeringOf p k policy limit threshold with
  | none => refused s .range
  | some x => let t := s.steer x; granted t.left (leSigned 4 t.du.i ++ leSigned 4 t.du.c)

/-- SET_STEERING (R22). -/
def execSetSteering (p k policy : Byte) (limit threshold : BitVec 32) (s : State) :
    Host.Outcome State Fault Refusal :=
  takeControl s 0x02 16 fun s => s.setSteering p k policy limit threshold

/-- The effects of a SET_TRACE_LIMITS in range (R45). -/
def State.limitTrace (s : State) (x : TraceLimits) : State :=
  let hold := s.du.state = .holdover ∨ s.du.state = .reacquiring
  let s1 : State := { s with du := { s.du with
    limits := x
    eBase := if hold then s.du.e else s.du.eBase
    holdCount := if hold then 0 else s.du.holdCount
    cls := classOf s.du.state s.du.e x.divergence } }
  let v := s1.left
  ((s1.classChanged s.du.cls v.now v.du.cls).create v.now v.du.cls 255 false false (.clock 0 none
    (.params none (some { old := s.du.limits, new := x, e := s1.du.e, cls := s1.du.cls })))).handOver

/-- SET_TRACE_LIMITS's answer (R45). The take precedes the work of its period that is still to be done. -/
def State.setTraceLimits (s : State) (divergence floor rate : BitVec 32) : Answer :=
  match limitsOf divergence floor rate with
  | none => refused s .range
  | some x => let t := s.limitTrace x; granted t.left (leBytes 4 t.du.e ++ u8 t.du.cls.code ++ pad 3)

/-- SET_TRACE_LIMITS (R45). -/
def execSetTraceLimits (divergence floor rate : BitVec 32) (s : State) :
    Host.Outcome State Fault Refusal :=
  takeControl s 0x03 16 fun s => s.setTraceLimits divergence floor rate

/-! ## The lines (R66 to R68) -/

/-- The result area of OPEN_LINE and CLOSE_LINE: admission before, link, FIFO fill. -/
def Line.resultBytes (l : Line) : List Byte := flag l.opened ++ flag l.up ++ u8 l.fifo.length ++ pad 5

/-- A line's admission set, or RANGE for an index above 3 (R66, R67). -/
def State.setAdmission (s : State) (index : Byte) (opened : Bool) : Answer :=
  match lineOf index with
  | none => refused s .range
  | some l => granted (s.setLine l { s.line l with opened := opened }) (s.line l).resultBytes

/-- OPEN_LINE (R66). -/
def execOpenLine (index : Byte) (s : State) : Host.Outcome State Fault Refusal :=
  takeControl s 0x04 8 fun s => s.setAdmission index true

/-- CLOSE_LINE (R67). -/
def execCloseLine (index : Byte) (s : State) : Host.Outcome State Fault Refusal :=
  takeControl s 0x05 8 fun s => s.setAdmission index false

/-- SET_LINE_PARAMS's answer (R68). -/
def State.setLineParams (s : State) (index urgentA urgentB : Byte) : Answer :=
  match lineOf index with
  | none => refused s .range
  | some l =>
    granted (s.setLine l { s.line l with urgentA := urgentA.toNat, urgentB := urgentB.toNat })
      (u8 (s.line l).urgentA ++ u8 (s.line l).urgentB ++ pad 6)

/-- SET_LINE_PARAMS (R68). -/
def execSetLineParams (index urgentA urgentB : Byte) (s : State) : Host.Outcome State Fault Refusal :=
  takeControl s 0x06 8 fun s => s.setLineParams index urgentA urgentB

/-! ## SQM (R84, R85) -/

/-- A line is quiet: CLOSED, its FIFO empty, no frame in progress. -/
def Line.quiet (l : Line) : Bool := !l.opened && l.fifo.isEmpty && l.frame.isNone

/-- The part is quiet (R84). -/
def State.quiet (s : State) : Bool :=
  s.lines.allB Line.quiet && s.evt.fifo.isEmpty && s.evt.ctx.state != .active && s.pst.records.isEmpty
    && s.sqm.agenda.isEmpty

/-- A new run (R85): its RUN record is created and released at once, and ATT's range start is absent
(R130). Taken in the period that reached an attestation boundary, before it is emitted, the RUN record
precedes an ATTEST record with an earlier stamp: R84 gives that order, against R75 (log entry 4). -/
def State.newRun (s : State) (next run : Nat) : State :=
  (({ s with
      sqm := { s.sqm with next := next, first := next, run := run, exhausted := false }
      att := { s.att with rangeStart := none } } : State).createLeft (.run run next)).releaseHead .internal |>.left

/-- SET_SEQUENCE's answer (R84, R85). -/
def State.setSequence (s : State) (next : BitVec 64) (run : BitVec 32) : Answer :=
  if next = 0#64 then refused s .range
  else if !s.quiet then refused s .state
  else granted (s.newRun next.toNat run.toNat) (leBytes 8 s.sqm.next ++ leBytes 4 s.sqm.run ++ pad 4)

/-- SET_SEQUENCE (R84). -/
def execSetSequence (next : BitVec 64) (run : BitVec 32) (s : State) : Host.Outcome State Fault Refusal :=
  takeControl s 0x07 16 fun s => s.setSequence next run

/-! ## ATU: groups (R97, R98, R100) -/

/-- The effective call-open instant (R98, item 2). -/
def effectiveOpen (callOpen now : Instant) : Instant := if callOpen.ble now then now else callOpen

/-- The entry of a group that is armed (R98, items 1 to 3). -/
def Group.arm (x : Group) (m w xx : Nat) (callOpen close : Instant) : Group :=
  { x with callOpen := callOpen, close := close, w := w, x := xx, m := m, used := 0, drawn := none,
           callCount := 0, callTimer := true, windowTimer := true, closeTimer := false,
           passedOver := none }

/-- The effects of a legal ARM_GROUP (R98). A late call-open runs out within the take (R96). -/
def State.armGroup (s : State) (g : Fin 64) (m w x : Nat) (callOpen close : Instant) : State :=
  let effective := effectiveOpen callOpen s.instant
  let late := callOpen.ble s.instant
  let s1 := (s.setGroup g ((s.group g).arm m w x effective close)).create s.now s.du.cls g.val false false
    (.schedule { disarm := false, phase := (s.group g).phase, m := m, w := w, x := x,
                 requested := some (callOpen.at s.tb.epoch), effective := some (effective.at s.tb.epoch),
                 close := some (close.at s.tb.epoch) })
  if late then s1.runCallOpen g s.tb.epoch s.du.cls true false else s1

/-- The result area of a refused ARM_GROUP: the phase at take (R97). -/
def armRefused (s : State) (st : SlotStatus) (phase : GroupPhase) : Answer :=
  { state := s, status := st, result := u8 phase.code ++ pad 23 }

/-- A group takes no new schedule: it is in CALL or CLOSING, or busy (R97, R100). -/
def State.engaged (s : State) (g : Fin 64) : Bool := (s.group g).running || s.busy g

/-- ARM_GROUP's answer from the tests on the instant now onwards (R97). A timer that a step of the period
passed over has made the group busy (R114). -/
def State.armNow (s : State) (g : Fin 64) (m w x : Nat) (callOpen close : Instant) : Answer :=
  let phase := (s.group g).phase
  if s.engaged g then armRefused s .state phase
  else if close.ble s.instant then armRefused s .late phase
  else
    granted (s.armGroup g m w x callOpen close)
      (u8 phase.code ++ pad 7 ++ time16 ((effectiveOpen callOpen s.instant).at s.tb.epoch))

/-- ARM_GROUP's answer (R97). It reads now and the class after the work of the period (R2, R36). -/
def State.arm (s : State) (group m : Byte) (w x : BitVec 32) (callOpen close : HostTime) : Answer :=
  match groupOf group.toNat with
  | none => armRefused s .range .idle
  | some g =>
    if s.engaged g then armRefused s .state (s.group g).phase
    else if !scheduleOk m w x callOpen close then armRefused s .range (s.group g).phase
    else s.left.armNow g m.toNat w.toNat x.toNat (hostInstant callOpen) (hostInstant close)

/-- ARM_GROUP (R97). -/
def execArmGroup (group m : Byte) (w x : BitVec 32) (callOpen close : HostTime) (s : State) :
    Host.Outcome State Fault Refusal :=
  takeControl s 0x08 48 fun s => s.arm group m w x callOpen close

/-- The entry of a group that is disarmed: its phase until the SCHEDULE record's release (R100). -/
def Group.disarm (x : Group) : Group := { Group.powerOn with phase := x.phase }

/-- The effects of a legal DISARM_GROUP (R100). -/
def State.disarmGroup (s : State) (g : Fin 64) : State :=
  (s.setGroup g (s.group g).disarm).create s.now s.du.cls g.val false false
    (.schedule { disarm := true, phase := (s.group g).phase, m := 0, w := 0, x := 0,
                 requested := none, effective := none, close := none })

/-- DISARM_GROUP's answer for a group that is not IDLE (R100). A timer that a step of the period passed over
has made the group busy (R114). -/
def State.disarmNow (s : State) (g : Fin 64) : Answer :=
  if s.engaged g then refused s .state
  else granted (s.disarmGroup g) (u8 (s.group g).phase.code ++ pad 7)

/-- DISARM_GROUP's answer (R100). It reads now and the class after the work of the period (R2, R36). -/
def State.disarm (s : State) (group : Byte) : Answer :=
  match groupOf group.toNat with
  | none => refused s .range
  | some g =>
    if s.engaged g then refused s .state
    else if (s.group g).phase = .idle then granted s (u8 GroupPhase.idle.code ++ pad 7)
    else s.left.disarmNow g

/-- DISARM_GROUP (R100). -/
def execDisarmGroup (group : Byte) (s : State) : Host.Outcome State Fault Refusal :=
  takeControl s 0x09 8 fun s => s.disarm group

/-! ## ATU: the generator and the alarms (R105, R117, R118) -/

/-- The generator state a seed gives (R105). -/
def seedOf (seed : BitVec 32) : BitVec 32 := if seed = 0#32 then 1#32 else seed

/-- SET_SEED's answer (R105). -/
def State.setSeed (s : State) (seed : BitVec 32) : Answer :=
  granted { s with atu := { s.atu with generator := seedOf seed } }
    (leBytes 4 s.atu.generator.toNat ++ leBytes 4 (seedOf seed).toNat)

/-- SET_SEED (R105). -/
def execSetSeed (seed : BitVec 32) (s : State) : Host.Outcome State Fault Refusal :=
  takeControl s 0x0A 8 fun s => s.setSeed seed

/-- The effects of a legal SET_ALARM (R117): a first instant at or before now runs out in the take. -/
def State.armAlarm (s : State) (a : Fin 8) (period : Nat) (first : Instant) : State :=
  if first.ble s.instant then
    (s.setAlarm a (some { period := period, next := s.instant, late := true })).runAlarm a s.tb.epoch s.du.cls
  else s.setAlarm a (some { period := period, next := first, late := false })

/-- SET_ALARM's answer (R117). It reads now and the class after the work of the period (R2, R36). -/
def State.setAlarmEntry (s : State) (index : Byte) (period : BitVec 32) (first : HostTime) : Answer :=
  match alarmOf index with
  | none => refused s .range
  | some a =>
    if !hostTimeOk first || decide (period.toNat > 3600000) then refused s .range
    else
      let v := s.left
      granted (v.armAlarm a period.toNat (hostInstant first))
        (time16 ((effectiveOpen (hostInstant first) v.instant).at v.tb.epoch)
          ++ flag ((hostInstant first).ble v.instant) ++ pad 7)

/-- SET_ALARM (R117). -/
def execSetAlarm (index : Byte) (period : BitVec 32) (first : HostTime) (s : State) :
    Host.Outcome State Fault Refusal :=
  takeControl s 0x0B 24 fun s => s.setAlarmEntry index period first

/-- CANCEL_ALARM's answer (R118). An instant at or before now has run out, so an entry that is present is
cancelled after the work of the period, which may step over it (R2, R120). -/
def State.cancelAlarm (s : State) (index : Byte) : Answer :=
  match alarmOf index with
  | none => refused s .range
  | some a =>
    if (s.alarm a).isNone then granted s (pad 8)
    else
      let v := s.left
      granted (v.setAlarm a none) (flag (v.alarm a).isSome ++ pad 7)

/-- CANCEL_ALARM (R118). -/
def execCancelAlarm (index : Byte) (s : State) : Host.Outcome State Fault Refusal :=
  takeControl s 0x0C 8 fun s => s.cancelAlarm index

/-! ## ATT (R135, R136) -/

/-- A check input with new settings (R135, item 3): a change of enable clears the watched mark, and an
input that becomes disabled drops its pulse. -/
def Check.configure (k : Check) (x : Bool × CheckFilter × Nat) : Check :=
  { k with enabled := x.1, filter := x.2.1, limit := x.2.2,
           watched := if x.1 = k.enabled then k.watched else false,
           pulse := if x.1 then k.pulse else none }

/-- The effects of a SET_EVIDENCE_PARAMS in range (R135). A boundary of the old period that its own period
reached is no boundary any more, and an action instant of the period follows, with its step or set (R131). A
judgement that the carry of the period still calls for comes first, by the settings up to here: now lies in the
second that the carry began, so that an input enabled here is not judged for it (R134). DEDUCED: that an input
disabled here is judged for the second that ended before (log entry 41). DESIGN CHOICE: a request that repeats
the period leaves a boundary that its period reached as it is, so that this is still emitted (log entry 44). -/
def State.configureEvidence (s : State) (period : Nat) (x0 x1 : Bool × CheckFilter × Nat) : State :=
  let s := s.settleJudge
  ({ s with att := { s.att with
      period := period
      nextBoundary := if period = s.att.period then s.att.nextBoundary
        else boundaryAfter s.instant period
      chk0 := s.att.chk0.configure x0
      chk1 := s.att.chk1.configure x1 } } : State).acted

/-- SET_EVIDENCE_PARAMS's answer (R135). -/
def State.setEvidence (s : State) (period : Byte) (chk0 chk1 : CheckParams) : Answer :=
  match checkOf chk0, checkOf chk1 with
  | some x0, some x1 =>
    if 1 ≤ period.toNat ∧ period.toNat ≤ 60 then
      let t := s.configureEvidence period.toNat x0 x1
      granted t (s.att.settingBytes ++ leBytes 8 t.att.nextBoundary)
    else refused s .range
  | _, _ => refused s .range

/-- SET_EVIDENCE_PARAMS (R135). -/
def execSetEvidenceParams (period : Byte) (chk0 chk1 : CheckParams) (s : State) :
    Host.Outcome State Fault Refusal :=
  takeControl s 0x0D 24 fun s => s.setEvidence period chk0 chk1

/-- QUERY_STATUS (R136): it reads now, so the action instant of the period is taken first (R2, R36); a missing
marker or a second of holdover that the queue has behind it is not included. -/
def execQueryStatus (s : State) : Host.Outcome State Fault Refusal :=
  takeControl s 0x0E 0 fun s =>
    granted s.acted s.acted.statusBytes

/-! ## PST (R172) -/

/-- The effects of a SET_CAPTURE_PARAMS in range (R172, R162). -/
def State.configureCapture (s : State) (x : CaptureParams) : State :=
  ({ s with pst := { s.pst with params := x } } : State).flowAll.notifyIf
    (decide (s.pst.records.length < s.pst.params.high) && decide (x.high ≤ s.pst.records.length))
    .pendingHigh

/-- SET_CAPTURE_PARAMS's answer (R172). -/
def State.setCapture (s : State) (flush : BitVec 32) (high low push : BitVec 16) (notifyAll : Byte) :
    Answer :=
  match captureOf flush high low push notifyAll with
  | none => refused s .range
  | some x =>
    granted (s.configureCapture x) (s.pst.params.bytes ++ leBytes 2 s.pst.records.length ++ pad 6)

/-- SET_CAPTURE_PARAMS (R172). -/
def execSetCaptureParams (flush : BitVec 32) (high low push : BitVec 16) (notifyAll : Byte) (s : State) :
    Host.Outcome State Fault Refusal :=
  takeControl s 0x0F 16 fun s => s.setCapture flush high low push notifyAll

end Sys2Proof.Machine
end

