-- ==== Sys2Proof/Machine/Resets.lean ====
section
/-!
DEFINITION. Power and reset scopes (9.5, 9.7): POWER_ON, CONVENTIONAL_RESET, SUPPLY_OUT_OF_RANGE, and the
scopes LINES, AUCTIONS, CHAINS and FULL.
-/

namespace Sys2Proof.Machine

open Sys2Proof

/-! ## Power-on values (R188) -/

/-- Every block at its power-on values (R188). What lies outside the part stays: the rails and the
oscillator, what was sent already, the waiting commands; so does the model's count of free values. -/
def State.powerOn (s : State) : State :=
  { State.reset with
    rail33 := s.rail33, rail09 := s.rail09, osc := s.osc, wire := s.wire, draws := s.draws,
    pending := s.pending }

/-- POWER_ON (R188): both rails are in range again. -/
def execPowerOn (s : State) : Host.Outcome State Fault Refusal :=
  .next { s.powerOn with rail33 := true, rail09 := true }

/-- CONVENTIONAL_RESET (R188): the effect of power-on on the whole part. -/
def execConventionalReset (s : State) : Host.Outcome State Fault Refusal :=
  .next s.powerOn

/-- SUPPLY_OUT_OF_RANGE (R188): the part is held in power-on until both rails have returned. -/
def execSupplyOutOfRange (rail : Rail) (s : State) : Host.Outcome State Fault Refusal :=
  .next (match rail with
    | .v33 => { s.powerOn with rail33 := false }
    | .v09 => { s.powerOn with rail09 := false })

/-! ## LINES (R71, R128) -/

/-- A line at a LINES reset: its flow state is evaluated with an empty FIFO, its urgent kinds are kept. -/
def Line.reset (l : Line) (fill high low : Nat) : Line :=
  { Line.powerOn with
    hold := ({ l with fifo := [] } : Line).nextHold fill high low
    urgentA := l.urgentA
    urgentB := l.urgentB }

/-- LINE_CHANGE for each line whose link was UP (R71, item 5). -/
def State.notifyLinks (s : State) (old : Quad Line) : State :=
  (((s.notifyIf old.l0.up .lineChange).notifyIf old.l1.up .lineChange).notifyIf old.l2.up
    .lineChange).notifyIf old.l3.up .lineChange

/-- The LINES scope (R71); ATT first adds every line counter to its carried count (R128). -/
def State.resetLines (s : State) : State :=
  ({ s with
      lines := s.lines.map fun l =>
        l.reset s.pst.records.length s.pst.params.high s.pst.params.low
      att := { s.att with carried := Quad.zip (fun c (l : Line) => c.plus l.counters) s.att.carried s.lines } }
    : State).notifyLinks s.lines

/-- LINES (R71, R186): it completes at its effect instant. -/
def execLines (s : State) : Host.Outcome State Fault Refusal :=
  windowed s fun s => s.resetLines.notify .resetDone

/-! ## AUCTIONS (R121) -/

/-- AUCTIONS (R121, R186). A scope in progress is not started again (R185). -/
def execAuctions (s : State) : Host.Outcome State Fault Refusal :=
  windowed s fun s => if s.prt.auctions = .idle then s.auctionsEffect else s

/-! ## CHAINS (R186, R173) -/

/-- The CHAINS scope starts: it waits for an issued capture DONE write, else takes effect at once. -/
def State.startScope (s : State) : State :=
  ({ s with prt := { s.prt with chains := .waitDone } } : State).settleScope

/-- CHAINS (R186). -/
def execChains (s : State) : Host.Outcome State Fault Refusal :=
  windowed s fun s => if s.prt.chains = .idle then s.startScope else s

/-- CHAINS_RESET_EFFECT (R158, R173): the DONE write the scope waited for has completed or failed. -/
def execChainsResetEffect (s : State) : Host.Outcome State Fault Refusal :=
  .next (if s.powered then s.takeScope else s)

/-! ## FULL (R187) -/

/-- FULL (R187): every block at its power-on values, NOTICE then holding RESET_DONE alone; the endpoint is
kept. -/
def execFull (s : State) : Host.Outcome State Fault Refusal :=
  .next (if s.powered && s.ep.seen then
    { s.powerOn with ep := s.ep, prt := { PRT.powerOn with notice := Cause.mask .resetDone } }
  else s)

end Sys2Proof.Machine
end

