-- ==== Sys2Proof/Machine/Dispatch.lean ====
section
/-!
DEFINITION. The meaning of each command: one arm for each row of spec/opcode_table.json.
-/

namespace Sys2Proof.Machine

open Sys2Proof

def exec (i : Instr) (s : State) : Host.Outcome State Fault Refusal :=
  match i with
  | .powerOn => Sys2Proof.Machine.execPowerOn s
  | .conventionalReset => Sys2Proof.Machine.execConventionalReset s
  | .supplyOutOfRange rail => Sys2Proof.Machine.execSupplyOutOfRange rail s
  | .oscillatorStop => Sys2Proof.Machine.execOscillatorStop s
  | .oscillatorReturn => Sys2Proof.Machine.execOscillatorReturn s
  | .refSyncGained => Sys2Proof.Machine.execRefSyncGained s
  | .refSyncLost why => Sys2Proof.Machine.execRefSyncLost why s
  | .refFrameEnd data how => Sys2Proof.Machine.execRefFrameEnd data how s
  | .marker => Sys2Proof.Machine.execMarker s
  | .missingMarkerExpiry => Sys2Proof.Machine.execMissingMarkerExpiry s
  | .actionInstant => Sys2Proof.Machine.execActionInstant s
  | .holdoverSecond => Sys2Proof.Machine.execHoldoverSecond s
  | .linkUp line => Sys2Proof.Machine.execLinkUp line s
  | .linkDown line why => Sys2Proof.Machine.execLinkDown line why s
  | .frameStart line => Sys2Proof.Machine.execFrameStart line s
  | .frameEnd line data malformed how => Sys2Proof.Machine.execFrameEnd line data malformed how s
  | .responseSent line => Sys2Proof.Machine.execResponseSent line s
  | .flowSymbolSent line => Sys2Proof.Machine.execFlowSymbolSent line s
  | .release => Sys2Proof.Machine.execRelease s
  | .callOpenTimer group => Sys2Proof.Machine.execCallOpenTimer group s
  | .closeWindowTimer group => Sys2Proof.Machine.execCloseWindowTimer group s
  | .closeTimer group => Sys2Proof.Machine.execCloseTimer group s
  | .alarmTimer alarm => Sys2Proof.Machine.execAlarmTimer alarm s
  | .attestBoundary => Sys2Proof.Machine.execAttestBoundary s
  | .checkRisingTransition input => Sys2Proof.Machine.execCheckRisingTransition input s
  | .checkPulseDropped input => Sys2Proof.Machine.execCheckPulseDropped input s
  | .checkEdgeRecognized input => Sys2Proof.Machine.execCheckEdgeRecognized input s
  | .checkSecondJudged => Sys2Proof.Machine.execCheckSecondJudged s
  | .flushTimerExpiry => Sys2Proof.Machine.execFlushTimerExpiry s
  | .blockHeaderRead chain header => Sys2Proof.Machine.execBlockHeaderRead chain header s
  | .nextAddressRead chain address => Sys2Proof.Machine.execNextAddressRead chain address s
  | .slotHeadRead chain head => Sys2Proof.Machine.execSlotHeadRead chain head s
  | .setTime target => Sys2Proof.Machine.execSetTime target s
  | .setSteering p k policy limit threshold => Sys2Proof.Machine.execSetSteering p k policy limit threshold s
  | .setTraceLimits divergence floor rate => Sys2Proof.Machine.execSetTraceLimits divergence floor rate s
  | .openLine index => Sys2Proof.Machine.execOpenLine index s
  | .closeLine index => Sys2Proof.Machine.execCloseLine index s
  | .setLineParams index urgentA urgentB => Sys2Proof.Machine.execSetLineParams index urgentA urgentB s
  | .setSequence next run => Sys2Proof.Machine.execSetSequence next run s
  | .armGroup group m w x callOpen close => Sys2Proof.Machine.execArmGroup group m w x callOpen close s
  | .disarmGroup group => Sys2Proof.Machine.execDisarmGroup group s
  | .setSeed seed => Sys2Proof.Machine.execSetSeed seed s
  | .setAlarm index period first => Sys2Proof.Machine.execSetAlarm index period first s
  | .cancelAlarm index => Sys2Proof.Machine.execCancelAlarm index s
  | .setEvidenceParams period chk0 chk1 => Sys2Proof.Machine.execSetEvidenceParams period chk0 chk1 s
  | .queryStatus => Sys2Proof.Machine.execQueryStatus s
  | .setCaptureParams flush high low push notifyAll => Sys2Proof.Machine.execSetCaptureParams flush high low push notifyAll s
  | .stamp group payloadLength payload => Sys2Proof.Machine.execStamp group payloadLength payload s
  | .extend group => Sys2Proof.Machine.execExtend group s
  | .abandon group => Sys2Proof.Machine.execAbandon group s
  | .writeBackComplete => Sys2Proof.Machine.execWriteBackComplete s
  | .blockStateWriteComplete chain => Sys2Proof.Machine.execBlockStateWriteComplete chain s
  | .recordPlace => Sys2Proof.Machine.execRecordPlace s
  | .captureDoneComplete => Sys2Proof.Machine.execCaptureDoneComplete s
  | .dmaReadFailed chain => Sys2Proof.Machine.execDmaReadFailed chain s
  | .dmaReadTimeout chain => Sys2Proof.Machine.execDmaReadTimeout chain s
  | .dmaWriteFailed failed => Sys2Proof.Machine.execDmaWriteFailed failed s
  | .start chain => Sys2Proof.Machine.execStart chain s
  | .resume chain => Sys2Proof.Machine.execResume chain s
  | .stop chain => Sys2Proof.Machine.execStop chain s
  | .chainCommandUndefined chain => Sys2Proof.Machine.execChainCommandUndefined chain s
  | .chainAddrWrite chain part value => Sys2Proof.Machine.execChainAddrWrite chain part value s
  | .noticeClear value => Sys2Proof.Machine.execNoticeClear value s
  | .noticeEnableWrite value => Sys2Proof.Machine.execNoticeEnableWrite value s
  | .vectorUnmasked => Sys2Proof.Machine.execVectorUnmasked s
  | .registerWriteIgnored write => Sys2Proof.Machine.execRegisterWriteIgnored write s
  | .lines => Sys2Proof.Machine.execLines s
  | .auctions => Sys2Proof.Machine.execAuctions s
  | .chains => Sys2Proof.Machine.execChains s
  | .chainsResetEffect => Sys2Proof.Machine.execChainsResetEffect s
  | .full => Sys2Proof.Machine.execFull s
  | .oscillatorPeriod => Sys2Proof.Machine.execOscillatorPeriod s

end Sys2Proof.Machine
end

