-- ==== Sys2Proof/Safety.lean ====
section
/-!
DEFINITION. What counts as a sound state: the ranges, capacities and shapes that the rules give each
block's state, which every step keeps; and the conditions under which a command meets a part that is at
work with nothing left to do.
-/

namespace Sys2Proof.Machine

open Sys2Proof

/-! ## A part at work -/

/-- The part is powered, its oscillator runs, nothing that the rules tie to this instant is still to be done,
and no work of the period whose outcome has been read (`State.owed`). -/
abbrev State.ready (s : State) : Prop := s.powered = true ∧ s.osc = true ∧ s.quiescent = true

/-- The same, but for writes that could go out and have not: DMA_WRITE_FAILED says how many of them went out
before the one that fails (log entry 8). -/
abbrev State.calm (s : State) : Prop :=
  s.powered = true ∧ s.osc = true ∧ s.settled = true ∧ s.owed = false

/-- The host reaches the register window of a part at work (R188): the link is up and the endpoint has been
configured. -/
abbrev State.served (s : State) : Prop := s.ready ∧ s.ep.linkUp = true ∧ s.ep.configured = true

/-- The endpoint can send host accesses (R182): the link is up and bus mastering is enabled. -/
abbrev State.carries (s : State) : Prop := s.ep.linkUp = true ∧ s.ep.busMaster = true

/-- Nothing that this oscillator period reached is left for its end. -/
abbrev State.periodDone (s : State) : Prop :=
  s.actionDue = false ∧ s.missingDue = false ∧ s.holdoverDue = false ∧ s.clock.carried = false
    ∧ s.edgeDue s.att.chk0 = false ∧ s.edgeDue s.att.chk1 = false ∧ s.boundaryDue = false
    ∧ s.flushDue = false

/-! ## Time and discipline (R1, R4, R5, R9, R22, R34, R38) -/

/-- The counter, the epoch, INC, I and C lie in their ranges, and INC is the one that C gives. -/
abbrev State.timeOk (s : State) : Prop :=
  s.tb.sec < Config.secondsWrap ∧ s.tb.ns < Config.second ∧ s.tb.frac < Config.unit
    ∧ s.tb.epoch ≤ Config.epochMax ∧ s.tb.inc = incOf s.du.c
    ∧ 1 ≤ s.du.steering.limit ∧ s.du.steering.limit ≤ 500000
    ∧ s.du.i.natAbs ≤ s.du.steering.limit ∧ s.du.c.natAbs ≤ s.du.steering.limit

/-- E and the acquisition counts lie in their ranges (R38, R34). -/
abbrev State.boundOk (s : State) : Prop :=
  s.du.e ≤ Config.errorMax ∧ s.du.goodRun ≤ Config.count16 ∧ s.du.badRun ≤ Config.count16

/-! ## Lines (R50, R60, R61, R62, R69) -/

abbrev Counters.ok (c : Counters) : Prop :=
  c.accepted ≤ Config.count32 ∧ c.closed ≤ Config.count32 ∧ c.length ≤ Config.count32
    ∧ c.crc ≤ Config.count32 ∧ c.kind ≤ Config.count32 ∧ c.group ≤ Config.count32
    ∧ c.full ≤ Config.count32 ∧ c.aborted ≤ Config.count32

/-- The FIFO and the ack queue keep to their sizes, only a link that is UP has a frame in progress, and
the transmitter is at a response only over a link that is UP and with a queue that holds one. -/
abbrev Line.ok (l : Line) : Prop :=
  l.fifo.length ≤ Config.fifoDepth ∧ l.acks.length ≤ Config.ackDepth ∧ l.counters.ok
    ∧ (l.frame.isSome = true → l.up = true)
    ∧ (l.tx ≠ .idle → l.up = true ∧ l.acks ≠ [])

abbrev State.linesOk (s : State) : Prop := ∀ l : Fin 4, (s.line l).ok

/-! ## Sequence and store (R80, R160) -/

/-- The records carry consecutive numbers, the last of them just before `next`. -/
def numbered (next : Nat) : List Record → Prop
  | [] => True
  | r :: rs => r.seq + rs.length + 1 = next ∧ numbered next rs

/-- The number after the last one given. -/
def SQM.numberEnd (q : SQM) : Nat := if q.exhausted then q.next + 1 else q.next

/-- PST holds at most 1,024 records under one unbroken range of numbers that ends with the last number
given, and the placed records are among them. -/
abbrev State.storeOk (s : State) : Prop :=
  s.pst.records.length ≤ Config.storeDepth ∧ s.pst.placed ≤ s.pst.records.length
    ∧ 1 ≤ s.sqm.next ∧ s.sqm.next ≤ Config.seqMax ∧ s.sqm.tie ≤ 4
    ∧ numbered s.sqm.numberEnd s.pst.records

/-! ## The agenda (R86, R87) -/

/-- The agenda stands in agenda order, no two entries are of one coalescing class, and every entry was
created before the next one will be. -/
abbrev SQM.agendaOk (q : SQM) : Prop :=
  q.agenda.Pairwise (fun a b => keyLt a.key b.key = true)
    ∧ q.agenda.Pairwise (fun a b => a.body.sameClass b.body = false)
    ∧ ∀ e ∈ q.agenda, e.order < q.created

/-! ## Groups and generator (R93, R104) -/

abbrev Group.ok (x : Group) : Prop :=
  x.used ≤ x.m ∧ x.m ≤ 15 ∧ x.w ≤ 300000 ∧ x.x ≤ 3600000 ∧ x.callCount ≤ Config.count32

/-- Every group entry lies in its ranges, and the generator is never 0. -/
abbrev State.auctionsOk (s : State) : Prop :=
  s.atu.generator ≠ 0#32 ∧ ∀ g : Fin 64, (s.group g).ok

/-! ## Evidence (R123, R126, R133, R134) -/

abbrev Check.ok (k : Check) : Prop :=
  k.edges ≤ Config.count4 ∧ k.missing ≤ Config.count16 ∧ 1 ≤ k.limit ∧ k.limit ≤ 1000000

/-- The attestation period, its counts and the check inputs lie in their ranges. -/
abbrev State.evidenceOk (s : State) : Prop :=
  1 ≤ s.att.period ∧ s.att.period ≤ 60 ∧ s.att.servoSeconds ≤ Config.count16
    ∧ (s.att.theta.isSome = true ↔ s.att.servoSeconds ≠ 0)
    ∧ s.att.chk0.ok ∧ s.att.chk1.ok

/-! ## Chains (R140, R155) -/

/-- A park kind is present while PARKED and only then, a fault cause while FAULT and only then; RESUME is
remembered, and the walk stands somewhere, only while ACTIVE. -/
abbrev ChainCtx.ok (x : ChainCtx) : Prop :=
  (x.park.isSome = true ↔ x.state = .parked) ∧ (x.fault.isSome = true ↔ x.state = .fault)
    ∧ (x.remembered = true → x.state = .active) ∧ (x.walk ≠ .none → x.state = .active)

/-- The three contexts are sound, only the event chain and the capture chain stop by stages, and the
engine FIFO keeps to its size. -/
abbrev State.chainsOk (s : State) : Prop :=
  s.ctl.ctx.ok ∧ s.evt.ctx.ok ∧ s.cap.ctx.ok ∧ s.ctl.ctx.state ≠ .stopping
    ∧ s.evt.fifo.length ≤ Config.engineDepth

/-! ## Words that the statements use -/

/-- The control chain stands at a NEW slot of kind `code` that CHE's checks passed, and may take it. A STOP
may wait for its answer (R143). -/
abbrev State.requestAt (s : State) (code off : Nat) (h : SlotHead) : Prop :=
  s.ready ∧ s.carries ∧ s.prt.chains ≠ .waitDone ∧ s.ctl.ctx.state = .active
    ∧ (s.ctl.ctx.walk = .slot off h ∨ s.ctl.ctx.walk = .lastSlot off h) ∧ h.kind.toNat = code

/-- The event chain stands at a NEW slot of kind `code`, and the conditions of R153 hold. -/
abbrev State.eventAt (s : State) (code off : Nat) (h : SlotHead) : Prop :=
  s.ready ∧ s.carries ∧ s.prt.chains ≠ .waitDone ∧ s.evt.ctx.state = .active
    ∧ s.evt.fifo.length < 16 ∧ s.outstanding < 16 ∧ s.pst.records.length < s.pst.params.high
    ∧ s.evt.ctx.walk = .slot off h ∧ h.kind.toNat = code

/-- The chain waits for the host read `w`, and no CHAINS scope keeps it from going on. -/
abbrev State.waitsFor (s : State) (c : Chain) (w : Walk) : Prop :=
  s.ready ∧ s.carries ∧ s.prt.chains ≠ .waitDone ∧ (s.ctx c).state = .active ∧ (s.ctx c).walk = w

/-- A write of `bytes` at offset `off` of a block of the chain, whose completion ends nothing. -/
def blockWrite (c : Chain) (block : BitVec 64) (off : Nat) (bytes : List Byte) : HostWrite :=
  { chain := c, block := block, addr := block.toNat + off, bytes := bytes, ends := .plain }

/-- The final header write of a request block (R139, R192). -/
def finalWrites (c : Chain) (block : BitVec 64) (status cause state : Byte) (count first last : Nat)
    (notify leave : Bool) : List HostWrite :=
  [blockWrite c block 10 [status, cause],
   blockWrite c block 20 (leBytes 4 count ++ leBytes 8 first ++ leBytes 8 last),
   { blockWrite c block 8 [state] with ends := .final notify leave }]

/-- The control slot at body offset `off` gets its result area (16 bytes past the head and `body` bytes
of body) and then its status; it is counted; and the walk goes on to the next slot, or finishes a block
walked to its used value DONE (R139, R148, R151). Where a STOP waits for this answer, the chain is INACTIVE
and the block finished, DONE if it was walked to its used value and else PARTIAL with cause STOP (R143). -/
def State.slotAnswered (s : State) (off : Nat) (h : SlotHead) (body : Nat) (result : List Byte)
    (status : SlotStatus) : State :=
  let block := s.ctl.ctx.current
  let count := s.ctl.block.count + 1
  let writes := (if result.isEmpty then [] else
      [blockWrite .control block (64 + off + 16 + body) result])
    ++ [blockWrite .control block (64 + off + 4) [BitVec.ofNat 8 status.code]]
  let finish (cause state : Byte) (leave : Bool) : List HostWrite :=
    finalWrites .control block 0#8 cause state count 0 0 s.ctl.block.notify leave
  let after (x : ChainCtx) (ws : List HostWrite) : State :=
    { s with
      posted := s.posted ++ writes ++ ws
      ctl := { ctx := x, block := { s.ctl.block with count := count } } }
  let more : Prop := off + h.length.toNat < s.ctl.block.used
  match s.ctl.ctx.walk with
  | .lastSlot .. =>
    after { s.ctl.ctx with state := .inactive, remembered := false, walk := .none }
      (if more then finish 4#8 4#8 false else finish 0#8 3#8 false)
  | _ =>
    if more then after { s.ctl.ctx with walk := .slotHead (off + h.length.toNat) } []
    else after { s.ctl.ctx with walk := .finishing none } (finish 0#8 3#8 true)

/-- The event walk leaves its block, the last one in flight and now `b`, after `writes`: with nothing of it
outstanding it is finished DONE, else it stays in flight until then. The blocks before it stay (R145, R157). -/
def State.eventLeft (s : State) (b : EvtBlock) (writes : List HostWrite) : State :=
  { s with
    posted := s.posted ++ writes ++ (if b.outstanding = 0 then
      finalWrites .event b.addr (if b.bad then 1#8 else 0#8) 0#8 3#8 b.count (b.low.getD 0) (b.high.getD 0)
        b.notify false else [])
    evt := { s.evt with
      ctx := { s.evt.ctx with walk := .next }
      blocks := s.evt.blocks.dropLast ++ if b.outstanding = 0 then [] else [{ b with left := true }] } }

/-- The event walk goes on behind a slot of `len` bytes at `off`, after `writes`, its block now `b`: to the next
slot, or from a block walked to its used value to the next block (R145, R148, R157). -/
def State.eventWalked (s : State) (off len : Nat) (b : EvtBlock) (writes : List HostWrite) : State :=
  if off + len < b.used then
    { s with
      posted := s.posted ++ writes
      evt := { s.evt with
        ctx := { s.evt.ctx with walk := .slotHead (off + len) }, blocks := s.evt.blocks.dropLast ++ [b] } }
  else s.eventLeft b writes

/-- The write-back of a released event slot (R156): result area, then status. -/
def EngineEntry.backWrites (e : EngineEntry) (seq : Nat) (tag : PhaseTag) (status : SlotStatus)
    (tail : List Byte) : List HostWrite :=
  [blockWrite .event e.block (64 + e.offset + 24)
    (leBytes 8 seq ++ time12 e.stamp
      ++ [BitVec.ofNat 8 e.cls.code, 0#8, 0#8, 0#8, BitVec.ofNat 8 tag.code] ++ tail),
   { blockWrite .event e.block (64 + e.offset + 4) [BitVec.ofNat 8 status.code] with ends := .writeBack }]

/-- The phase tag of a record of `group`: its phase in the state, with OPEN for IDLE and ARMED; NONE for no
group (R83). -/
def State.tagOf (s : State) (group : Nat) : PhaseTag :=
  if h : group < 64 then
    match (s.group ⟨group, h⟩).phase with
    | .idle => .opened | .armed => .opened | .call => .call | .closing => .closing | .closed => .closed
  else .none

/-- The CALL count of a group in whose phase a record is tagged: it rises in CALL, to 2^32 − 1 at most
(R94). -/
def Group.counted (x : Group) : Nat :=
  if x.phase = .call then min 4294967295 (x.callCount + 1) else x.callCount

/-- Of the auctions, a release tagged for `group` changes that group's CALL count alone (R94). -/
abbrev State.callCounted (s t : State) (group : Nat) : Prop :=
  (∀ g : Fin 64, t.group g =
      if g.val = group then { s.group g with callCount := (s.group g).counted } else s.group g)
    ∧ t.atu.alarms = s.atu.alarms ∧ t.atu.generator = s.atu.generator

/-- The number given to a release is used, 2^64 − 1 being the last one, and the tie pointer becomes `tie` (R79,
R80). -/
def State.numberTaken (s : State) (tie : Nat) : SQM :=
  if s.sqm.next < 18446744073709551615 then { s.sqm with next := s.sqm.next + 1, tie := tie }
  else { s.sqm with exhausted := true, tie := tie }

/-- The head of a source is about to be released, and no boundary and no step or set record of this period has
to come first (R75, R77). -/
abbrev State.releases (s : State) (src : Source) : Prop :=
  s.ready ∧ s.boundaryDue = false ∧ s.workFirst = false ∧ s.sqm.tie ≤ 4
    ∧ s.atInstant.releasable src = true

/-! ## A counter moved from `s` to `t` by −`d` -/

/-- An armed timer at `i` is passed over by the move (R19): the move goes forward, and `i` lies after the time
before it and at or before the time after it. -/
def State.passesOver (s t : State) (d : Int) (armed : Bool) (i : Instant) : Bool :=
  decide (d < 0) && armed && Instant.crossed s.instant t.instant i

/-- A record of group `g` in the agenda, created for a timer passed over (R114). -/
abbrev State.steppedRecord (s : State) (g : Fin 64) (stamp : Stamp) (cls : TraceClass) (body : Body) :
    Prop :=
  ∃ e ∈ s.sqm.agenda, e.stamp = stamp ∧ e.cls = cls ∧ e.group = g.val ∧ e.late = false
    ∧ e.steppedOver = true ∧ e.body = body

/-- What the move does to a group that it does not abandon (R114, R115): each timer passed over is disarmed,
its record is created STEPPED_OVER at the timer's instant, and the passed-over limit is the time after. -/
abbrev State.groupPassed (s t : State) (d : Int) (g : Fin 64) : Prop :=
  let x := s.group g
  let call := s.passesOver t d x.callTimer x.callOpen
  let window := s.passesOver t d x.windowTimer x.close
  let close := match x.drawn with
    | some i => s.passesOver t d x.closeTimer i.instant
    | none => false
  t.group g = { x with
      callTimer := x.callTimer && !call, windowTimer := x.windowTimer && !window
      closeTimer := x.closeTimer && !close
      passedOver := if call || window || close then some t.now else x.passedOver }
    ∧ (call = true → t.steppedRecord g (x.callOpen.at t.tb.epoch) t.du.cls (.phase false))
    ∧ (window = true → t.steppedRecord g (x.close.at t.tb.epoch) t.du.cls (.window 0 0 none))
    ∧ ∀ drawn, close = true → x.drawn = some drawn → t.steppedRecord g drawn t.du.cls (.close drawn 0 0 0)

/-- What the move does to an alarm (R115, R120): passed over by `n` of its instants it creates one record,
STEPPED_OVER, with missed count n − 1 at the first of them, sets ALARM (bit 11), and is absent if a one-shot,
else next due at its first instant after the move; a backward move keeps it. -/
abbrev State.alarmPassed (s t : State) (d : Int) (a : Fin 8) : Prop :=
  match s.alarm a with
  | none => t.alarm a = none
  | some x =>
    let span := x.period * 1000000
    let skipped := (((t.instant.total : Int) - x.next.total) % 281474976710656000000000).toNat
    (s.passesOver t d true x.next = false → t.alarm a = some x)
      ∧ (s.passesOver t d true x.next = true → t.prt.notice.getLsbD 11 = true
        ∧ ∃ n : Nat, (x.period = 0 → n = 1 ∧ t.alarm a = none)
          ∧ (x.period ≠ 0 → (n - 1) * span ≤ skipped ∧ skipped < n * span
              ∧ t.alarm a = some { period := x.period, next := x.next.add (n * span), late := false })
          ∧ ((∀ e ∈ s.sqm.agenda, ∀ m, e.body ≠ .alarm a.val m) →
              ∃ e ∈ t.sqm.agenda, e.stamp = x.next.at t.tb.epoch ∧ e.cls = t.du.cls ∧ e.late = false
                ∧ e.steppedOver = true ∧ e.body = .alarm a.val (min 65535 (n - 1))))

/-- A running group at a set (R113): its timers are disarmed, it is abandon pending with its phase kept, and
of its records only the ABANDON stamped at the time before the set waits. -/
abbrev State.groupAbandoned (s t : State) (g : Fin 64) : Prop :=
  let x := s.group g
  let body := x.abandonBody .set s.tb.epoch
  t.group g = { x with callTimer := false, windowTimer := false, closeTimer := false, abandonPending := true }
    ∧ (∃ e ∈ t.sqm.agenda, e.stamp = s.now ∧ e.cls = s.du.cls ∧ e.group = g.val ∧ e.body = body)
    ∧ ∀ e ∈ t.sqm.agenda, e.body.isGroup = true → e.group = g.val → e.stamp = s.now ∧ e.body = body

/-- What the move does to ATU: at a set the running groups are abandoned; timers and alarms that it skips are
passed over (R19, R113 to R115, R120). -/
abbrev State.timersMoved (s t : State) (d : Int) (set : Bool) : Prop :=
  (∀ g : Fin 64, if set = true ∧ ((s.group g).phase = .call ∨ (s.group g).phase = .closing)
      then s.groupAbandoned t g else s.groupPassed t d g)
    ∧ ∀ a : Fin 8, s.alarmPassed t d a

/-- What the move does to the evidence (R20, R131, R134): no boundary of a skipped span is emitted, the next
one is the first after the move, and no check input watches the second. -/
abbrev State.evidenceMoved (s t : State) : Prop :=
  let first := (t.tb.sec / s.att.period + 1) * s.att.period
  t.att.nextBoundary = (if first < 281474976710656 then first else 0)
    ∧ t.att.periodStart = s.att.periodStart
    ∧ t.att.chk0 = { s.att.chk0 with watched := false } ∧ t.att.chk1 = { s.att.chk1 with watched := false }
    ∧ ∀ l : Fin 4, t.line l = s.line l

/-- The step gate's four conditions (R11). -/
abbrev State.gateConditions (s : State) : Prop :=
  (∀ l : Fin 4, (s.line l).opened = false) ∧ s.evt.fifo = [] ∧ s.evt.ctx.state ≠ .active
    ∧ ∀ g : Fin 64, (s.group g).phase ≠ .call ∧ (s.group g).phase ≠ .closing

/-- R15 holds a step by D. -/
abbrev State.epochHolds (s : State) (d : Int) : Prop := s.tb.epoch ≥ 65535 ∧ d > 0

/-- The counter's position in ns, and the position `d` ns behind it on the counter that wraps (R1, R12). -/
def State.position (s : State) : Int := (s.tb.sec : Int) * 1000000000 + (s.tb.ns : Int)

/-- The instants, in ns, on one round of the counter. -/
abbrev counterRound : Int := 281474976710656000000000

/-- A waiting record of a CLOCK subkind (R87). -/
abbrev State.waits (s : State) (subkind : Nat) : Prop :=
  ∃ e ∈ s.sqm.agenda, ∃ theta marker b, e.body = .clock theta marker b ∧ b.code = subkind

/-- An entry of the agenda with this stamp, class and body, of no group. -/
abbrev State.holds (s : State) (t : Stamp) (cls : TraceClass) (body : Body) : Prop :=
  ∃ e ∈ s.sqm.agenda, e.stamp = t ∧ e.cls = cls ∧ e.group = 255 ∧ e.body = body

/-- The second at the head of the judged ones, whose action instant has come (R26). -/
abbrev State.acts (s : State) (sec : Second) (rest : List Second) : Prop :=
  s.ready ∧ s.du.judged = sec :: rest ∧ sec.period < s.clock.period

/-- Nothing of this period's ordinary advance is left for ATT (R131, R134). -/
abbrev State.evidenceDone (s : State) : Prop := s.boundaryDue = false ∧ s.clock.carried = false

end Sys2Proof.Machine
end

