-- ==== Sys2Proof/Certificates/Slice0/Obligations.lean ====
section
/-!
DEFINITION. The statements for the provers, chapter by chapter. A statement about a command gives the
state it leaves; where that is an update of `s`, every field not named is as it was. A clause
`t = { s with f := t.f, … }` says the same of a state whose named fields the other clauses describe.
-/

open Sys2Proof Sys2Proof.Machine

/-! ## The machine as a whole -/

/-- A step takes the command at the front of the queue and is `exec` of it with the queue's rest waiting.
On an empty queue the part idles: that clause is the model's choice (log entry 3). -/
def Obligations.StepTakesFront : Prop :=
  (∀ (c : Instr) (rest : List Instr) (s : State), s.pending = c :: rest →
      step s = exec c { s with pending := rest })
    ∧ ∀ s : State, s.pending = [] → step s = .next s

/-- Every command answers a next state, leaves the waiting commands as they are, and takes nothing back
that was sent. (That a command which cannot happen leaves the state as it is is log entry 1.) -/
def Obligations.EveryCommandAnswers : Prop :=
  ∀ (c : Instr) (s : State), ∃ (t : State) (sent : List Output),
    exec c s = .next t ∧ t.pending = s.pending ∧ t.wire = sent ++ s.wire

/-- The values after power-on (R24, R48, R72, R80, R92, R93, R104, R116, R123, R140, R172, R183, R184). -/
def Obligations.ResetValues : Prop :=
  (State.reset.now = ⟨0, 0, 0⟩ ∧ State.reset.tb.frac = 0 ∧ State.reset.tb.inc = 17179869184
      ∧ State.reset.tb.utcOffset = 0 ∧ State.reset.tb.demand = none)
    ∧ (State.reset.du.state = .free ∧ State.reset.du.i = 0 ∧ State.reset.du.c = 0
      ∧ State.reset.du.e = 4000000000 ∧ State.reset.du.cls = .unsynchronized
      ∧ State.reset.du.steering = { p := 1, k := 4, limit := 100000, threshold := 50000, never := false }
      ∧ State.reset.du.limits = { divergence := 100000, floor := 50, rate := 100 }
      ∧ State.reset.du.expected = none ∧ State.reset.du.inSync = false)
    ∧ (∀ l : Fin 4, (State.reset.line l).up = false ∧ (State.reset.line l).opened = false
      ∧ (State.reset.line l).fifo = [] ∧ (State.reset.line l).acks = [] ∧ (State.reset.line l).hold = false)
    ∧ (State.reset.sqm.next = 1 ∧ State.reset.sqm.run = 0 ∧ State.reset.sqm.first = 1
      ∧ State.reset.sqm.exhausted = false ∧ State.reset.sqm.tie = 0 ∧ State.reset.sqm.agenda = [])
    ∧ ((∀ g : Fin 64, (State.reset.group g).phase = .idle) ∧ (∀ a : Fin 8, State.reset.alarm a = none)
      ∧ State.reset.atu.generator = 1#32)
    ∧ (State.reset.att.period = 1 ∧ State.reset.att.periodStart = ⟨0, 0, 0⟩
      ∧ State.reset.att.nextBoundary = 1 ∧ State.reset.att.rangeStart = none)
    ∧ (∀ c : Chain, (State.reset.ctx c).state = .inactive ∧ (State.reset.ctx c).start = 0#64)
    ∧ (State.reset.pst.records = [] ∧ State.reset.pst.params =
        { flush := 50000, high := 768, low := 512, push := 256#16, notifyAll := false })
    ∧ (State.reset.prt.notice = 0#15 ∧ State.reset.prt.enable = 0#15)

/-- The state after reset meets every invariant that a step keeps. -/
def Obligations.ResetIsSound : Prop :=
  State.reset.timeOk ∧ State.reset.boundOk ∧ State.reset.linesOk ∧ State.reset.storeOk
    ∧ State.reset.sqm.agendaOk ∧ State.reset.auctionsOk ∧ State.reset.evidenceOk ∧ State.reset.chainsOk

/-- Every step keeps the counter, the epoch, INC, I and C in their ranges, INC the one that C gives (R1, R4,
R5, R9). Every step keeps E at or below 4,000,000,000 and the acquisition counts within 16 bits (R34, R38). -/
def Obligations.StepKeepsTime : Prop :=
  (∀ s t : State, s.timeOk → step s = .next t → t.timeOk)
    ∧ (∀ s t : State, s.boundOk → step s = .next t → t.boundOk)

/-- Every step keeps each line's collections to their sizes, and lets only a line that is UP have a frame
in progress or a response being sent (R50, R60, R61, R62, R69). -/
def Obligations.StepKeepsLines : Prop :=
  ∀ s t : State, s.linesOk → step s = .next t → t.linesOk

/-- Every step keeps PST to 1,024 records under one unbroken range of numbers that ends with the last
number given (R80, R160). -/
def Obligations.StepKeepsStore : Prop :=
  ∀ s t : State, s.storeOk → step s = .next t → t.storeOk

/-- Every step keeps the agenda in agenda order with one record of each coalescing class (R86, R87). -/
def Obligations.StepKeepsAgenda : Prop :=
  ∀ s t : State, s.sqm.agendaOk → step s = .next t → t.sqm.agendaOk

/-- Every step keeps the group entries in their ranges and the generator away from 0 (R93, R104). -/
def Obligations.StepKeepsAuctions : Prop :=
  ∀ s t : State, s.auctionsOk → step s = .next t → t.auctionsOk

/-- Every step keeps the attestation period, its counts and the check settings in their ranges, and θ
items present exactly while there were servo seconds (R123, R126, R132 to R135). -/
def Obligations.StepKeepsEvidence : Prop :=
  ∀ s t : State, s.evidenceOk → step s = .next t → t.evidenceOk

/-- Every step keeps a park kind to PARKED, a fault cause to FAULT, a remembered RESUME to ACTIVE, the
control chain out of STOPPING, and the engine FIFO to 16 entries (R140, R142, R143, R155). -/
def Obligations.StepKeepsChains : Prop :=
  ∀ s t : State, s.chainsOk → step s = .next t → t.chainsOk

/-! ## Power and the oscillator (9.5, 9.7) -/

/-- POWER_ON, CONVENTIONAL_RESET and SUPPLY_OUT_OF_RANGE: every block at its power-on values; what is
outside the part stays (R188). FULL: every block at its power-on values, NOTICE holding RESET_DONE (bit 14)
alone, the endpoint as it was, and nothing sent (R187). While a rail is out of its range the part is held in
power-on: no command but one of the supplies, the oscillator or a conventional reset changes anything
(R188). While the link is down, or before the endpoint has been configured, the host reaches no register
(R188): a write of one changes nothing, and no vector is unmasked over a link that is down (log entry 6). -/
def Obligations.PowerOnAndFull : Prop :=
  (∀ s : State,
     let values : State := { State.reset with
       rail33 := s.rail33, rail09 := s.rail09, osc := s.osc, wire := s.wire, draws := s.draws,
       pending := s.pending }
     exec .powerOn s = .next { values with rail33 := true, rail09 := true }
       ∧ exec .conventionalReset s = .next values
       ∧ exec (.supplyOutOfRange .v33) s = .next { values with rail33 := false }
       ∧ exec (.supplyOutOfRange .v09) s = .next { values with rail09 := false })
    ∧ (∀ s : State, s.powered = true → s.ep.linkUp = true → s.ep.configured = true →
         exec .full s = .next { State.reset with
           rail33 := s.rail33, rail09 := s.rail09, osc := s.osc, wire := s.wire, draws := s.draws,
           pending := s.pending, ep := s.ep,
           prt := { notice := 0x4000#15, enable := 0#15, chains := .idle, auctions := .idle } })
    ∧ (∀ (c : Instr) (s : State), s.powered = false →
         match c with
         | .powerOn | .conventionalReset | .supplyOutOfRange _ | .oscillatorStop | .oscillatorReturn => True
         | _ => exec c s = .next s)
    ∧ (∀ (c : Instr) (s : State), s.ep.linkUp = false ∨ s.ep.configured = false →
         match c with
         | .start _ | .resume _ | .stop _ | .chainCommandUndefined _ | .chainAddrWrite _ _ _ | .noticeClear _
         | .noticeEnableWrite _ | .registerWriteIgnored _ | .lines | .auctions | .chains | .full =>
           exec c s = .next s
         | .vectorUnmasked => s.ep.linkUp = false → exec c s = .next s
         | _ => True)

/-- OSCILLATOR_PERIOD, with nothing of the period that ends left to do: INC is added to the counter, with
one carry into seconds at most and the wrap at 2^48 (R1); own time rises by INC (R3). OSCILLATOR_STOP, after
what the period reached has taken effect: an action instant, and a timer, whose notice is set (R36, R96, R190);
OSCILLATOR_RETURN; and while the oscillator is stopped, the counter stands still, no timer or filter runs
out, and every take, stamp, release and received symbol waits (R190). That a command which names such an
event, a loss of the link or of sync and the two of the return transmitters included, then leaves the state
as it is and is gone from the queue is the model's reading (log entries 1 and 28). -/
def Obligations.Oscillator : Prop :=
  (∀ s : State, s.ready → s.periodDone → s.timeOk →
     let q := s.tb.ns * 4294967296 + s.tb.frac + s.tb.inc
     let carry : Prop := 1000000000 ≤ q / 4294967296
     exec .oscillatorPeriod s = .next { s with
       tb := { s.tb with
         sec := if carry then (s.tb.sec + 1) % 281474976710656 else s.tb.sec
         ns := if carry then q / 4294967296 - 1000000000 else q / 4294967296
         frac := q % 4294967296 }
       clock := { own := s.clock.own + s.tb.inc, period := s.clock.period + 1,
                  prev := ⟨s.tb.sec, s.tb.ns⟩, carried := decide carry, read := false,
                  promised := .nothing } })
    ∧ ((∀ s : State, s.powered = false ∨ s.osc = false ∨ (s.ready ∧ s.periodDone) →
             exec .oscillatorStop s = .next { s with osc := false })
         ∧ (∀ (s t : State) (sec : Second), s.acts sec [] → exec .actionInstant s = .next t →
             t.missingDue = false → t.holdoverDue = false →
             exec .oscillatorStop s = exec .oscillatorStop t)
         ∧ (∀ (s : State) (a : Fin 8), s.powered = true → s.osc = true → s.owed = false →
             s.alarmDue a = true →
             ∃ t : State, exec .oscillatorStop s = .next t ∧ t.osc = false ∧ t.prt.notice.getLsbD 11 = true)
         ∧ (∀ s : State, exec .oscillatorReturn s = .next { s with osc := true })
         ∧ ∀ (c : Instr) (s : State), s.osc = false →
           match c with
           | .oscillatorPeriod | .refSyncGained | .refSyncLost _ | .refFrameEnd _ _ | .marker
           | .missingMarkerExpiry | .actionInstant | .holdoverSecond | .linkUp _ | .linkDown _ _
           | .frameStart _ | .frameEnd _ _ _ _ | .responseSent _ | .flowSymbolSent _ | .release
           | .callOpenTimer _ | .closeWindowTimer _ | .closeTimer _ | .alarmTimer _ | .attestBoundary
           | .checkRisingTransition _ | .checkPulseDropped _ | .checkEdgeRecognized _ | .checkSecondJudged
           | .flushTimerExpiry | .setTime _ | .setSteering _ _ _ _ _ | .setTraceLimits _ _ _ | .openLine _
           | .closeLine _ | .setLineParams _ _ _ | .setSequence _ _ | .armGroup _ _ _ _ _ _ | .disarmGroup _
           | .setSeed _ | .setAlarm _ _ _ | .cancelAlarm _ | .setEvidenceParams _ _ _ | .queryStatus
           | .setCaptureParams _ _ _ _ _ | .stamp _ _ _ | .extend _ | .abandon _ => exec c s = .next s
           | _ => True)

/-! ## The time base (chapter 1) -/

/-- INC for a C within the largest slew limit lies within 17,171,279,249 to 17,188,459,119, it is the
nominal increment plus the integer nearest to the correction (no correction lies half way between two),
and it rises with C (R4). -/
def Obligations.IncrementFollowsCorrection : Prop :=
  (∀ c : Int, c.natAbs ≤ 500000 → 17171279249 ≤ incOf c ∧ incOf c ≤ 17188459119
      ∧ ∃ r : Int, (incOf c : Int) = 17179869184 + r
        ∧ 2 * (c * 17179869184 - r * 1000000000).natAbs < 1000000000)
    ∧ ∀ c d : Int, c.natAbs ≤ 500000 → d.natAbs ≤ 500000 → c < d → incOf c < incOf d

/-- SET_TIME, after the work of its period (R36; log entry 5), and in a period in which now has been read with
the next period, so that all readings of one period return the same (R2; log entry 40): refused with STATE,
RANGE or LIMIT, else the counter is set at take (R18). With nothing of this period's advance left for ATT, a
legal one puts the counter at the target with fraction 0, begins a new epoch if the target is earlier than
now, sets I and C to 0, and creates a CLOCK SET record stamped with the time before; DU stays FREE and E and
the UTC offset stay. The groups that run are abandoned, and the timers, alarms and boundaries of a skipped
span are passed over (R19, R20, R113 to R115, R120, R131). That a refusal writes the status alone is the
model's choice (log entry 20). Left out: a CLOCK SET record that waits already, and a period whose boundary or
judgement is still to come. -/
def Obligations.SetTime : Prop :=
  ∀ (s : State) (off : Nat) (h : SlotHead) (target : HostTime), s.requestAt 0x01 off h →
    let u := s.done
    let v := s.atSetTime target
    let new : Instant := ⟨target.sec.toNat, target.ns.toNat⟩
    let before (w : State) : Prop := new.sec < w.tb.sec ∨ (new.sec = w.tb.sec ∧ new.ns < w.tb.ns)
    let legal (w : State) : Prop :=
      w.du.state = .free ∧ new.ns ≤ 999999999 ∧ ¬ (before w ∧ 65535 ≤ w.tb.epoch)
    let earlier : Prop := before v
    (u.clock.read = true → legal u → v = u.nextPeriod.done)
      ∧ (u.clock.read = false ∨ ¬ legal u → v = u)
      ∧ (v.du.state ≠ .free → exec (.setTime target) s = .next (v.slotAnswered off h 16 [] .state))
      ∧ (v.du.state = .free → 999999999 < new.ns →
          exec (.setTime target) s = .next (v.slotAnswered off h 16 [] .range))
      ∧ (v.du.state = .free → new.ns ≤ 999999999 → earlier → 65535 ≤ v.tb.epoch →
          exec (.setTime target) s = .next (v.slotAnswered off h 16 [] .limit))
      ∧ (v.du.state = .free → new.ns ≤ 999999999 → ¬ (earlier ∧ 65535 ≤ v.tb.epoch) →
          v.tb.ns < 1000000000 → v.evidenceDone → ¬ v.waits 3 →
          ∃ t : State, exec (.setTime target) s
              = .next (t.slotAnswered off h 16 (time16 v.now ++ time16 t.now) .ok)
            ∧ t.tb = { v.tb with sec := new.sec, ns := new.ns, frac := 0, inc := 17179869184,
                                 epoch := if earlier then v.tb.epoch + 1 else v.tb.epoch }
            ∧ t.du = { v.du with i := 0, c := 0 }
            ∧ t.holds v.now v.du.cls (.clock
                (clamp (v.position - ((new.sec : Int) * 1000000000 + (new.ns : Int))) 4000000000) none
                (.set v.now t.now))
            ∧ v.timersMoved t (v.position - ((new.sec : Int) * 1000000000 + (new.ns : Int))) true
            ∧ v.evidenceMoved t ∧ t.clock.read = true
            ∧ t.att = { v.att with
                worstState := v.att.worstState.worse v.du.state, worstCls := v.att.worstCls.worse v.du.cls
                eMax := max v.att.eMax v.du.e, nextBoundary := t.att.nextBoundary
                chk0 := t.att.chk0, chk1 := t.att.chk1 }
            ∧ t = { v with tb := t.tb, du := t.du, clock := t.clock, sqm := t.sqm, atu := t.atu,
                           att := t.att, prt := t.prt, ep := t.ep, wire := t.wire })

/-- SET_STEERING: RANGE if a field is out of its range, with nothing changed; else the settings are replaced,
I is clamped to the new limit, C is clamped or follows −I or stays 0 by the discipline state, INC follows C,
NEVER ends a held demand, and a CLOCK PARAMS record is created (R22). SET_TRACE_LIMITS: RANGE if a field is
out of its range, with nothing changed; else the settings are replaced, in HOLDOVER or REACQUIRING E_base
becomes E and the count restarts, E stays, the class is evaluated with the new limit, and a CLOCK PARAMS
record is created (R45). Work of the period that is still to be done follows, with the new settings (R45); the
record reads now and the class as it leaves them (R2, R36; log entry 5). That RANGE writes the status alone is
the model's choice (log entry 20). -/
def Obligations.SettingsOfTime : Prop :=
  (∀ (s : State) (off : Nat) (h : SlotHead) (p k policy : Byte) (limit threshold : BitVec 32),
     s.requestAt 0x02 off h →
     let fits : Prop := p.toNat ≤ 8 ∧ k.toNat ≤ 16 ∧ policy.toNat ≤ 1 ∧ 1 ≤ limit.toNat
       ∧ limit.toNat ≤ 500000 ∧ 1000 ≤ threshold.toNat ∧ threshold.toNat ≤ 1000000000
     let x : Steering := { p := p.toNat, k := k.toNat, limit := limit.toNat,
                           threshold := threshold.toNat, never := policy == 1#8 }
     let i := clamp s.du.i x.limit
     let c := if s.du.state = .holdover ∨ s.du.state = .reacquiring then -i
       else if s.du.state = .free ∨ s.du.state = .acquiring then 0 else clamp s.du.c x.limit
     let t := ({ s with
         du := { s.du with steering := x, i := i, c := c }
         tb := { s.tb with inc := if c = s.du.c then s.tb.inc else incOf c
                           demand := if x.never then none else s.tb.demand } } : State).createLeft
       (.clock 0 none (.params (some { old := s.du.steering, new := x, i := i, c := c }) none))
     (¬ fits → exec (.setSteering p k policy limit threshold) s
         = .next (s.slotAnswered off h 16 [] .range))
       ∧ (fits → exec (.setSteering p k policy limit threshold) s
         = .next (t.left.slotAnswered off h 16 (leSigned 4 i ++ leSigned 4 c) .ok)))
    ∧ (∀ (s : State) (off : Nat) (h : SlotHead) (divergence floor rate : BitVec 32), s.requestAt 0x03 off h →
         let fits : Prop := 1 ≤ divergence.toNat ∧ divergence.toNat ≤ 1000000000 ∧ floor.toNat ≤ 1000000
           ∧ rate.toNat ≤ 500000
         let x : TraceLimits := { divergence := divergence.toNat, floor := floor.toNat, rate := rate.toNat }
         let growing : Prop := s.du.state = .holdover ∨ s.du.state = .reacquiring
         let cls : TraceClass := if s.du.state = .free ∨ s.du.state = .acquiring then .unsynchronized
           else if s.du.e ≤ x.divergence then .traceable else .degraded
         let du : DU := { s.du with
           limits := x, cls := cls, eBase := if growing then s.du.e else s.du.eBase
           holdCount := if growing then 0 else s.du.holdCount }
         let v := ({ s with du := du } : State).left
         (¬ fits → exec (.setTraceLimits divergence floor rate) s
             = .next (s.slotAnswered off h 16 [] .range))
           ∧ (fits → ∃ t : State, exec (.setTraceLimits divergence floor rate) s
                 = .next (t.left.slotAnswered off h 16 (leBytes 4 s.du.e ++ [BitVec.ofNat 8 cls.code, 0, 0, 0]) .ok)
               ∧ t.du = du
               ∧ (cls ≠ s.du.cls → t.prt.notice.getLsbD 7 = true)
               ∧ (¬ s.waits 6 → t.holds v.now v.du.cls (.clock 0 none
                   (.params none (some { old := s.du.limits, new := x, e := s.du.e, cls := cls }))))
               ∧ t = { s with du := t.du, sqm := t.sqm, att := t.att, prt := t.prt, ep := t.ep, wire := t.wire }))

/-! ## The reference line and the discipline (chapter 2) -/

/-- REF_SYNC_GAINED and REF_SYNC_LOST change the sync state and, at a loss, drop a frame in progress
(R25); REF_FRAME_END replaces the content of the latch whatever the verdict, which is the first that
applies (R27, 10.7); in the discard state after a 25th data symbol a frame end ends that state and is ignored,
a frame start ends it and begins a frame, and the rest is dropped (R27). A symbol heard advances the count of
R25, and the 32nd well-formed or the 4th malformed one in a row, or the loss of signal, brings the command.
The symbol counts that the commands leave are the model's reading (log entry 10), and so is the end of the
discard state at a loss of sync (log entry 37). -/
def Obligations.ReferenceReceiver : Prop :=
  (∀ s : State, s.ready → s.du.inSync = false →
      exec .refSyncGained s = .next { s with
        du := { s.du with inSync := true, wellFormed := 32, malformed := 0 } })
    ∧ (∀ (s : State) (why : SyncLoss), s.ready → s.du.inSync = true →
      exec (.refSyncLost why) s = .next { s with
        du := { s.du with inSync := false, receiver := .outside, wellFormed := 0,
                          malformed := if why = .malformedRun then 4 else 0 } })
    ∧ (∀ (s : State) (data : List Byte) (how : RefEnd), s.ready → s.du.inSync = true →
      s.du.receiver ≠ .discarding →
      let verdict : Verdict :=
        if data.length ≠ 24 ∨ how ≠ .frameEnd then .length
        else if (crc16 (data.take 22)).toNat ≠ ofBe (data.drop 22) then .crc
        else if 2 < byteAt data 8 ∨ 3 < byteAt data 9 then .format
        else .correct
      ∃ f : RefFields,
        exec (.refFrameEnd data how) s = .next { s with
          du := { s.du with
            latch := some { fields := f, verdict := verdict, endOwn := s.clock.own }
            receiver := if how = .symbol25 then .discarding
              else if how = .frameStart then .inFrame else .outside } }
          ∧ (verdict = .correct → f.seconds = ofBe (data.take 6) ∧ f.accuracy = ofBe (slice data 10 4)
              ∧ f.utcOffset = (BitVec.ofNat 16 (ofBe (slice data 6 2))).toInt
              ∧ f.leap.code = byteAt data 8 ∧ f.quality.code = byteAt data 9
              ∧ f.source = ofBe (slice data 14 2)))
    ∧ (∀ (s : State) (data : List Byte) (how : RefEnd), s.ready → s.du.inSync = true →
      s.du.receiver = .discarding →
      exec (.refFrameEnd data how) s = .next { s with
        du := { s.du with receiver := if how = .frameEnd then .outside
                                      else if how = .frameStart then .inFrame else .discarding } })
    ∧ ∀ s : State, s.powered = true → s.osc = true →
      let brings (du : DU) (c : List Instr) : State := { s with du := du, pending := s.pending ++ c }
      (s.du.inSync = false →
          s.refHears .wellFormed = brings { s.du with wellFormed := s.du.wellFormed + 1 }
            (if s.du.wellFormed = 31 then [.refSyncGained] else [])
          ∧ s.refHears .idle = s.refHears .wellFormed
          ∧ s.refHears .malformed = brings { s.du with wellFormed := 0 } [])
        ∧ (s.du.inSync = true →
          s.refHears .malformed = brings { s.du with malformed := s.du.malformed + 1 }
            (if s.du.malformed = 3 then [.refSyncLost .malformedRun] else [])
          ∧ s.refHears .wellFormed = brings { s.du with malformed := 0 } []
          ∧ s.refHears .lost = brings s.du [.refSyncLost .signalLost])

/-- An early MARKER, below 999,000,000 ns of own time from a PRESENT reference marker: a bad second with cause
EARLY; only the counts and the last-seen values change, and the second waits for its action instant (R26, R28,
R29, R32, R34). A bad second keeps the last offset (R33). A MARKER taken as a reference: the five tests of R31
in order give the cause of a bad second or a good one; it becomes the reference marker, the missing-marker
timer restarts, the latch is emptied (R29), the expected second and the counts move (R32, R34), and a good
second measures D and θ (R33). The marker latch reads now after an action instant of its period (R2; log entry
5). That an early marker replaces the last-seen values is log entry 14, the expected second without a wrap log
entry 19, and the frame in progress that never reaches the latch log entry 36. -/
def Obligations.Marker : Prop :=
  (∀ (s : State) (r : Nat), s.ready → s.du.inSync = true → s.du.present = true → s.du.refOwn = some r →
     (s.clock.own - r) / 4294967296 < 999000000 →
     let u := s.acted
     let bad := min 65535 (u.du.badRun + 1)
     exec .marker s = .next { u with
       du := { u.du with
         receiver := .outside
         seen := u.du.seenNow
         goodRun := 0
         badRun := bad
         judged := u.du.judged ++ [
           { cause := .early, latch := some u.now, d := 0, theta := 0, accuracy := 0, utcOffset := 0,
             expected := u.du.expected, goodRun := 0, badRun := bad, seen := u.du.seenNow,
             correct := u.du.correctLatched, period := u.clock.period }] } })
    ∧ (∀ s : State, s.ready → s.du.inSync = true →
         let u := s.acted
         let onTime : Prop := s.du.present = false ∨ ∃ r, s.du.refOwn = some r
           ∧ 999000000 ≤ (s.clock.own - r) / 4294967296 ∧ (s.clock.own - r) / 4294967296 ≤ 1001000000
         let reference : DU := { u.du with
           receiver := .outside, refOwn := some u.clock.own, present := true, latch := none,
           missingAt := some (u.clock.own + 1500000000 * 4294967296), seen := u.du.seenNow }
         (∀ cause : SecondCause,
             ((s.du.present = true ∧ (∃ r, s.du.refOwn = some r
                 ∧ 1001000000 < (s.clock.own - r) / 4294967296) ∧ cause = .lateMarker)
               ∨ (onTime ∧ s.du.latch = none ∧ cause = .noFrame)
               ∨ (onTime ∧ ∃ f, s.du.latch = some f ∧
                   ((f.verdict = .length ∧ cause = .length) ∨ (f.verdict = .crc ∧ cause = .crc)
                     ∨ (f.verdict = .format ∧ cause = .format)
                     ∨ (f.verdict = .correct ∧ f.fields.quality = .unusable ∧ cause = .unusable)
                     ∨ (f.verdict = .correct ∧ f.fields.quality ≠ .unusable
                         ∧ (s.clock.own - f.endOwn) / 4294967296 < 1000000 ∧ cause = .lateFrame)))) →
             let bad := min 65535 (u.du.badRun + 1)
             let expected := u.du.expected.map (· + 1)
             exec .marker s = .next { u with
               du := { reference with
                 expected := expected
                 goodRun := 0
                 badRun := bad
                 judged := u.du.judged ++ [
                   { cause := cause, latch := some u.now, d := 0, theta := 0, accuracy := 0, utcOffset := 0,
                     expected := expected, goodRun := 0, badRun := bad, seen := u.du.seenNow,
                     correct := u.du.correctLatched, period := u.clock.period }] } })
           ∧ ∀ f : FrameLatch, onTime → s.du.latch = some f → f.verdict = .correct →
             f.fields.quality ≠ .unusable → 1000000 ≤ (s.clock.own - f.endOwn) / 4294967296 →
             let consistent : Prop := u.du.expected = some f.fields.seconds
             let good := if consistent then min 65535 (u.du.goodRun + 1) else 1
             let now := u.now
             let d : Int := ((now.sec : Int) - (f.fields.seconds : Int)) * 1000000000 + (now.ns : Int)
             exec .marker s = .next { u with
               du := { reference with
                 expected := some (f.fields.seconds + 1)
                 goodRun := good
                 badRun := 0
                 lastOffset := clamp d 4000000000
                 judged := u.du.judged ++ [
                   { cause := if consistent then .goodConsistent else .goodInconsistent
                     latch := some now, d := d, theta := clamp d 4000000000
                     accuracy := f.fields.accuracy, utcOffset := f.fields.utcOffset
                     expected := some (f.fields.seconds + 1), goodRun := good, badRun := 0,
                     seen := { quality := f.fields.quality, accuracy := f.fields.accuracy,
                               leap := f.fields.leap, source := f.fields.source }
                     correct := true, period := s.clock.period }] } })

/-- ACTION_INSTANT, with nothing of this period's advance left for ATT: the discipline state moves as R35
says; outside the servo seconds C, I and E follow the state (R8, R40, R42), at the initial set I and C are 0
(R17), INC is recomputed (R4), the class is that of state and E (R43). A change of state sets
DISCIPLINE_CHANGE (bit 6) and creates CLOCK STATE with the fields of R37, a change of class sets TRACE_CHANGE
(bit 7) and creates CLOCK TRACE (R44), both stamped now after the work (R36). A good second that leaves DU
LOCKED adopts the frame's UTC offset, with a CLOCK OFFSET record where it differs (R21). DU hands the state, E,
the class, a servo second and the reference values of a CORRECT frame to ATT (R46, R126). `State.acted` and
`State.left`, which commands that read in this period have done first, are the state this work leaves, and the
state itself where no work is due, marked as read (R2, R36; log entry 5). -/
def Obligations.ActionInstant : Prop :=
  (∀ s : State, s.actionDue = false →
      s.acted = s.reading ∧ (s.missingDue = false → s.holdoverDue = false → s.left = s.reading))
  ∧ (∀ (s t : State) (sec : Second), s.acts sec [] → exec .actionInstant s = .next t →
      s.acted = t ∧ (t.missingDue = false → t.holdoverDue = false → s.left = t))
  ∧ ∀ (s : State) (sec : Second) (rest : List Second), s.acts sec rest → s.evidenceDone →
    let good : Prop := sec.cause = .goodConsistent ∨ sec.cause = .goodInconsistent
    ∃ t : State, exec .actionInstant s = .next t
      ∧ (t.du.state = match s.du.state with
          | .free => if good then .acquiring else .free
          | .acquiring => if sec.cause = .goodConsistent then .locked else if good then .acquiring else .free
          | .locked => if sec.cause = .goodConsistent then .locked else .suspect
          | .suspect => if sec.cause = .goodConsistent then .locked else .holdover
          | .holdover => if good then .reacquiring else .holdover
          | .reacquiring =>
            if sec.cause = .goodConsistent then .locked else if good then .reacquiring else .holdover)
      ∧ (t.du.state = .suspect → t.du.i = s.du.i ∧ t.du.c = s.du.c
          ∧ t.du.e = if s.du.state = .locked then min 4000000000 (s.du.e + s.du.limits.rate) else s.du.e)
      ∧ (t.du.state = .holdover ∨ t.du.state = .reacquiring →
          t.du.i = s.du.i ∧ t.du.c = -s.du.i ∧ t.du.e = s.du.e)
      ∧ (t.du.state = .free ∨ t.du.state = .acquiring →
          t.du.i = s.du.i ∧ t.du.c = 0 ∧ t.du.e = 4000000000)
      ∧ (t.du.state = .locked → s.du.state = .acquiring → t.du.i = 0 ∧ t.du.c = 0)
      ∧ t.tb.inc = incOf t.du.c
      ∧ (t.du.cls = if t.du.state = .free ∨ t.du.state = .acquiring then .unsynchronized
          else if t.du.e ≤ s.du.limits.divergence then .traceable else .degraded)
      ∧ (t.du.state ≠ s.du.state → t.prt.notice.getLsbD 6 = true
          ∧ (¬ s.waits 1 → t.holds t.now t.du.cls (.clock sec.theta sec.latch
              (.state s.du.state t.du.state sec.cause sec.seen.quality sec.seen.source sec.goodRun sec.badRun
                sec.expected))))
      ∧ (t.du.cls ≠ s.du.cls → t.prt.notice.getLsbD 7 = true
          ∧ (¬ s.waits 5 → t.holds t.now t.du.cls (.clock s.du.lastOffset none
              (.trace s.du.cls t.du.cls t.du.e s.du.limits.divergence))))
      ∧ t.tb.utcOffset = (if good ∧ t.du.state = .locked then sec.utcOffset else s.tb.utcOffset)
      ∧ (t.tb.utcOffset ≠ s.tb.utcOffset → ¬ s.waits 4 → t.holds t.now t.du.cls
          (.clock sec.theta sec.latch (.offset s.tb.utcOffset sec.utcOffset)))
      ∧ (let servo : Prop := t.du.state = .locked ∧ s.du.state ≠ .acquiring
         t.att = { s.att with
           worstState := s.att.worstState.worse t.du.state, worstCls := s.att.worstCls.worse t.du.cls
           eMax := max s.att.eMax t.du.e
           servoSeconds := if servo then min 65535 (s.att.servoSeconds + 1) else s.att.servoSeconds
           theta := if servo then some (match s.att.theta with
               | none => { last := sec.theta, min := sec.theta, max := sec.theta }
               | some r => { last := sec.theta, min := min r.min sec.theta, max := max r.max sec.theta })
             else s.att.theta
           leap := if sec.correct then sec.seen.leap else s.att.leap
           quality := if sec.correct then sec.seen.quality else s.att.quality
           accuracy := if sec.correct then sec.seen.accuracy else s.att.accuracy
           stepHeld := t.att.stepHeld, nextBoundary := t.att.nextBoundary
           chk0 := t.att.chk0, chk1 := t.att.chk1 })
      ∧ t.du = { s.du with judged := rest, state := t.du.state, i := t.du.i, c := t.du.c, e := t.du.e,
                           eBase := t.du.eBase, holdCount := t.du.holdCount, holdNext := t.du.holdNext,
                           cls := t.du.cls }
      ∧ t = { s with tb := t.tb, du := t.du, clock := t.clock, sqm := t.sqm, atu := t.atu, att := t.att,
                     prt := t.prt, ep := t.ep, wire := t.wire, draws := t.draws }

/-- The servo at the action instant of a servo second that steps nothing, θ being at or below the threshold, the
gate closed, the epoch limit in force, or the policy NEVER with no demand held (R10, R13, R15): I and C by the
four steps of R6, INC recomputed, the counter left running, and E from θ (R6, R39). -/
def Obligations.ServoSecond : Prop :=
  ∀ (s : State) (sec : Second) (rest : List Second), s.acts sec rest →
    sec.cause = .goodConsistent →
    s.du.state = .locked ∨ s.du.state = .suspect ∨ s.du.state = .reacquiring →
    sec.theta.natAbs ≤ s.du.steering.threshold ∨ ¬ s.gateConditions ∨ s.epochHolds sec.d
      ∨ (s.tb.demand = none ∧ s.du.steering.never = true) →
    let iTent := clamp (s.du.i + roundDiv sec.theta (2 ^ s.du.steering.k)) s.du.steering.limit
    let cTent := -(roundDiv sec.theta (2 ^ s.du.steering.p) + iTent)
    ∃ t : State, exec .actionInstant s = .next t ∧ t.du.state = .locked
      ∧ (cTent.natAbs ≤ s.du.steering.limit → t.du.c = cTent ∧ t.du.i = iTent)
      ∧ (s.du.steering.limit < cTent.natAbs → t.du.i = s.du.i
          ∧ t.du.c = if cTent > 0 then (s.du.steering.limit : Int) else -(s.du.steering.limit : Int))
      ∧ t.tb.inc = incOf t.du.c
      ∧ t.tb.sec = s.tb.sec ∧ t.tb.ns = s.tb.ns ∧ t.tb.frac = s.tb.frac ∧ t.tb.epoch = s.tb.epoch
      ∧ t.du.e = min 4000000000 (sec.theta.natAbs + max sec.accuracy s.du.limits.floor)

/-- A step: at a servo second with |θ| above the threshold, a demand raised or held, the gate open and the
epoch not holding it, the counter moves back by D, a positive D begins a new epoch, C becomes −I with
the servo's I, E falls to the accuracy, the demand ends, and CLOCK STEP is created, stamped with the
time before (R10 to R12, R14, R15, R23). Timers, alarms and boundaries of a skipped span are passed over (R19,
R20, R114, R115, R120, R131). The counter's wrap is log entry 19. -/
def Obligations.StepApplied : Prop :=
  ∀ (s : State) (sec : Second) (rest : List Second), s.acts sec rest → s.evidenceDone →
    sec.cause = .goodConsistent →
    s.du.state = .locked ∨ s.du.state = .suspect ∨ s.du.state = .reacquiring →
    s.tb.demand ≠ none ∨ s.du.steering.never = false →
    s.du.steering.threshold < sec.theta.natAbs → s.gateConditions → ¬ s.epochHolds sec.d → ¬ s.waits 2 →
    ∃ t : State, exec .actionInstant s = .next t
      ∧ t.position = (s.position - sec.d) % counterRound ∧ t.tb.ns < 1000000000
      ∧ t.tb.frac = s.tb.frac
      ∧ t.tb.epoch = (if sec.d > 0 then s.tb.epoch + 1 else s.tb.epoch)
      ∧ t.tb.demand = none
      ∧ t.du.i = (servo s.du.steering s.du.i sec.theta).1 ∧ t.du.c = -t.du.i
      ∧ t.tb.inc = incOf t.du.c
      ∧ t.du.e = min 4000000000 (max sec.accuracy s.du.limits.floor)
      ∧ t.holds s.now s.du.cls (.clock sec.theta sec.latch (.step s.now t.now))
      ∧ s.timersMoved t sec.d false ∧ s.evidenceMoved t

/-- A step demand with the gate closed, or held by the epoch limit, is held with the fresh θ and D; when it is
new, STEP_HELD (bit 8) is set and CLOCK HELD is created with θ, D and the direction. At or below the threshold
a demand is withdrawn. The counter is not moved (R10, R13 to R16). A second that leaves DU in HOLDOVER or FREE
withdraws a held demand, and one in SUSPECT, REACQUIRING or ACQUIRING keeps it (R14). The time the step would
give wraps as the counter does (log entry 19); its epoch at the epoch limit is a free value (log entry 15). -/
def Obligations.StepHeldOrWithdrawn : Prop :=
  (∀ (s : State) (sec : Second) (rest : List Second), s.acts sec rest →
    ∃ t : State, exec .actionInstant s = .next t
      ∧ (t.du.state = .holdover ∨ t.du.state = .free → t.tb.demand = none)
      ∧ (t.du.state = .suspect ∨ t.du.state = .reacquiring ∨ t.du.state = .acquiring →
          t.tb.demand = s.tb.demand))
  ∧ ∀ (s : State) (sec : Second) (rest : List Second), s.acts sec rest →
    sec.cause = .goodConsistent →
    s.du.state = .locked ∨ s.du.state = .suspect ∨ s.du.state = .reacquiring →
    ∃ t : State, exec .actionInstant s = .next t
      ∧ (sec.theta.natAbs ≤ s.du.steering.threshold → t.tb.demand = none ∧ t.now = s.now)
      ∧ (s.tb.demand = none → s.du.steering.never = true → t.tb.demand = none ∧ t.now = s.now)
      ∧ (s.du.steering.threshold < sec.theta.natAbs →
          s.tb.demand ≠ none ∨ s.du.steering.never = false →
          ¬ s.gateConditions ∨ s.epochHolds sec.d →
          t.tb.demand = some { theta := sec.theta, d := sec.d } ∧ t.now = s.now
            ∧ (s.tb.demand = none → t.prt.notice.getLsbD 8 = true ∧ t.att.stepHeld = true
              ∧ (¬ s.waits 7 → ∃ e ∈ t.sqm.agenda, ∃ new : Stamp, e.stamp = s.now
                ∧ e.body = .clock sec.theta sec.latch (.held s.now new sec.d (decide (sec.d > 0)))
                ∧ (new.sec : Int) * 1000000000 + (new.ns : Int) = (s.position - sec.d) % counterRound)))

/-- The initial set: the good consistent second that takes DU from ACQUIRING to LOCKED moves the counter
back by D, whatever the gate and the policy; at epoch 65,535 a backward set leaves the counter; I and C
become 0, E the accuracy, and CLOCK SET is created, stamped with the time before (R17, R23). Running groups
are abandoned, and timers, alarms and boundaries of a skipped span are passed over (R19, R20, R113 to R115,
R120, R131). That an ABANDON record carries the class in force before the set is log entry 18. The counter's
wrap is log entry 19. -/
def Obligations.InitialSet : Prop :=
  ∀ (s : State) (sec : Second) (rest : List Second), s.acts sec rest → s.evidenceDone →
    s.du.state = .acquiring → sec.cause = .goodConsistent → ¬ s.waits 3 →
    ∃ t : State, exec .actionInstant s = .next t
      ∧ t.du.state = .locked ∧ t.du.i = 0 ∧ t.du.c = 0 ∧ t.tb.inc = 17179869184
      ∧ t.tb.demand = none ∧ t.tb.frac = s.tb.frac
      ∧ t.du.e = min 4000000000 (max sec.accuracy s.du.limits.floor)
      ∧ (if s.epochHolds sec.d then t.now = s.now
         else t.position = (s.position - sec.d) % counterRound ∧ t.tb.ns < 1000000000
          ∧ t.tb.epoch = if sec.d > 0 then s.tb.epoch + 1 else s.tb.epoch)
      ∧ t.holds s.now s.du.cls (.clock sec.theta sec.latch (.set s.now t.now))
      ∧ t.tb.utcOffset = sec.utcOffset
      ∧ s.timersMoved t sec.d true ∧ s.evidenceMoved t

/-- MISSING_MARKER_EXPIRY, after an action instant of its period (R2; log entry 5): a bad second with cause
MISSING, acted on at once: the reference state becomes
ABSENT, the timer restarts for 1,000,000,000 ns, the expected second and the counts move (R30, R32, R34),
and the state, C, I and E follow the bad-second column (R8, R35, R40 to R42); a held demand ends but in SUSPECT
(R14). Now is not moved. HOLDOVER_SECOND: the count rises, E becomes E_base + rate × s, saturating, and the
class with it; ATT takes the new values in (R41, R43, R44, R46). A class that does not change creates no
record; the record of one that does is stamped with what an action instant of the period leaves, which
follows (R2, R36; log entry 5). -/
def Obligations.MissingAndHoldover : Prop :=
  (∀ (s : State) (at_ : Nat), s.ready → s.du.missingAt = some at_ → at_ ≤ s.clock.own →
     let u := s.acted
     ∃ t : State, exec .missingMarkerExpiry s = .next t
       ∧ (t.du.state = match u.du.state with
           | .free => .free | .acquiring => .free | .locked => .suspect | .suspect => .holdover
           | .holdover => .holdover | .reacquiring => .holdover)
       ∧ t.du.i = u.du.i
       ∧ (t.du.c = match u.du.state with
           | .free => 0 | .acquiring => 0 | .locked => u.du.c
           | .suspect => -u.du.i | .holdover => -u.du.i | .reacquiring => -u.du.i)
       ∧ t.tb.inc = incOf t.du.c
       ∧ (t.du.e = match u.du.state with
           | .free => 4000000000 | .acquiring => 4000000000
           | .locked => min 4000000000 (u.du.e + u.du.limits.rate)
           | .suspect => u.du.e | .holdover => u.du.e | .reacquiring => u.du.e)
       ∧ (u.du.state = .suspect ∨ u.du.state = .reacquiring → t.du.eBase = u.du.e ∧ t.du.holdCount = 0
           ∧ t.du.holdNext = u.clock.own + 1000000000 * 4294967296)
       ∧ t.now = u.now
       ∧ t.tb.demand = (if t.du.state = .suspect then u.tb.demand else none)
       ∧ t.du = { u.du with
           present := false, missingAt := some (u.clock.own + 1000000000 * 4294967296),
           expected := u.du.expected.map (· + 1), goodRun := 0, badRun := min 65535 (u.du.badRun + 1),
           state := t.du.state, i := t.du.i, c := t.du.c, e := t.du.e, eBase := t.du.eBase,
           holdCount := t.du.holdCount, holdNext := t.du.holdNext, cls := t.du.cls }
       ∧ t = { u with tb := t.tb, du := t.du, sqm := t.sqm, att := t.att, prt := t.prt, ep := t.ep,
                      wire := t.wire })
    ∧ (∀ s : State, s.ready → s.du.state = .holdover ∨ s.du.state = .reacquiring →
         s.du.holdNext ≤ s.clock.own →
         let e := min 4000000000 (s.du.eBase + s.du.limits.rate * (s.du.holdCount + 1))
         let cls : TraceClass := if e ≤ s.du.limits.divergence then .traceable else .degraded
         let du : DU := { s.du with holdCount := s.du.holdCount + 1, e := e, cls := cls,
                                    holdNext := s.du.holdNext + 1000000000 * 4294967296 }
         let v := ({ s with du := du } : State).acted
         ∃ t : State, exec .holdoverSecond s = .next (if cls = s.du.cls then t else t.acted)
           ∧ t.du = du
           ∧ t.att.eMax = max s.att.eMax e
           ∧ (cls = s.du.cls → t = { s with du := t.du, att := t.att })
           ∧ (cls ≠ s.du.cls → t.prt.notice.getLsbD 7 = true
               ∧ (¬ s.waits 5 → t.holds v.now v.du.cls (.clock s.du.lastOffset none
                   (.trace s.du.cls cls e s.du.limits.divergence))))
           ∧ t = { s with du := t.du, att := t.att, sqm := t.sqm, prt := t.prt, ep := t.ep, wire := t.wire })

/-! ## The order lines (chapter 3) -/

/-- LINK_UP: a flow symbol becomes due and LINE_CHANGE is set (R49, R51). LINK_DOWN: a frame in progress is
aborted and counted, a response partly sent is kept, FIFO, ack queue, admission, flow state and urgent kinds
are kept, LINE_CHANGE is set (R50). FRAME_START: under OPEN the frame takes the stamp now and the class in
force, after the work of the period (R2, R36; log entry 5), under CLOSED it is marked for refusal; a discard
state ends (R52, R53). A symbol heard in DOWN advances the training count or resets it, and the 64th idle in a
row brings LINK_UP; in UP the 4th malformed one in a row, or the loss of lock, brings LINK_DOWN (R49). The
counts that the commands leave are log entry 10; a frame start inside a frame is left out (log entry 12). -/
def Obligations.LinkAndFrameStart : Prop :=
  ((∀ (s : State) (l : Fin 4), s.ready → (s.line l).up = false →
       exec (.linkUp l) s = .next ((s.setLine l
         { s.line l with
           up := true, training := 0, malformedRun := 0, flowDue := true, tx := .idle }).notify .lineChange))
     ∧ ∀ (s : State) (l : Fin 4) (why : LinkLoss), s.ready → (s.line l).up = true →
       let counters := (s.line l).counters
       exec (.linkDown l why) s = .next ((s.setLine l
         { s.line l with
           up := false, training := 0, frame := none, discarding := false, tx := .idle
           malformedRun := if why = .malformedRun then 4 else (s.line l).malformedRun
           counters := if (s.line l).frame = none then counters
             else { counters with aborted := min 4294967295 (counters.aborted + 1) } }).notify .lineChange))
    ∧ (∀ (s : State) (l : Fin 4), s.ready → (s.line l).up = true → (s.line l).frame = none →
         ((s.line l).opened = true → exec (.frameStart l) s = .next (s.left.setLine l
             { s.left.line l with frame := some (.stamped s.left.now s.left.du.cls), discarding := false }))
           ∧ ((s.line l).opened = false → exec (.frameStart l) s = .next (s.setLine l
             { s.line l with frame := some .closed, discarding := false })))
    ∧ (∀ (s : State) (l : Fin 4), s.powered = true → s.osc = true →
         let x := s.line l
         let brings (y : Line) (c : List Instr) : State :=
           { s.setLine l y with pending := s.pending ++ c }
         (x.up = false →
             s.lineHears l .idle = brings { x with training := x.training + 1 }
               (if x.training = 63 then [.linkUp l] else [])
             ∧ ∀ h : Heard, h ≠ .idle → s.lineHears l h = brings { x with training := 0 } [])
           ∧ (x.up = true →
             s.lineHears l .malformed = brings { x with malformedRun := x.malformedRun + 1 }
               (if x.malformedRun = 3 then [.linkDown l .malformedRun] else [])
             ∧ s.lineHears l .wellFormed = brings { x with malformedRun := 0 } []
             ∧ s.lineHears l .idle = brings { x with malformedRun := 0 } []
             ∧ s.lineHears l .lost = brings x [.linkDown l .lockLost]))

/-- FRAME_END of a frame that fails a check: the first check of R55 that fails is the reason; the reason's
counter rises by 1, saturating, and no other (R69), REFUSE with the received tag is queued if the ack queue
has room, and nothing else changes but the frame in progress (R55 to R58). -/
def Obligations.FrameRefused : Prop :=
  ∀ (s : State) (l : Fin 4) (mark : FrameMark) (data : List Byte) (malformed : Bool) (how : FrameEnd),
    s.ready → (s.line l).frame = some mark →
    let n := ofBe (slice data 4 2)
    let lengthOk : Prop := how = .eof ∧ malformed = false ∧ 8 ≤ data.length ∧ 8 ≤ n ∧ n ≤ 240
      ∧ data.length = 8 + n + 4
    let crcOk : Prop := (crc32 (data.take (8 + n))).toNat = ofBe (slice data (8 + n) 4)
    ∀ reason : Refuse,
      ((mark = .closed ∧ reason = .closed)
        ∨ (mark ≠ .closed ∧ ¬ lengthOk ∧ reason = .length)
        ∨ (mark ≠ .closed ∧ lengthOk ∧ ¬ crcOk ∧ reason = .crc)
        ∨ (mark ≠ .closed ∧ lengthOk ∧ crcOk ∧ byteAt data 0 = 0 ∧ reason = .kind)
        ∨ (mark ≠ .closed ∧ lengthOk ∧ crcOk ∧ byteAt data 0 ≠ 0
            ∧ (64 ≤ byteAt data 1 ∧ byteAt data 1 ≤ 254) ∧ reason = .group)
        ∨ (mark ≠ .closed ∧ lengthOk ∧ crcOk ∧ byteAt data 0 ≠ 0
            ∧ ¬ (64 ≤ byteAt data 1 ∧ byteAt data 1 ≤ 254) ∧ 32 ≤ (s.line l).fifo.length
            ∧ reason = .full)) →
      let c := (s.line l).counters
      let up (n : Nat) : Nat := min 4294967295 (n + 1)
      ∃ x : Line, exec (.frameEnd l data malformed how) s = .next (s.setLine l x)
        ∧ x = { s.line l with frame := none, discarding := how == .runaway, acks := x.acks,
                              tx := x.tx, counters := x.counters }
        ∧ x.counters = (match reason with
            | .closed => { c with closed := up c.closed }
            | .length => { c with length := up c.length }
            | .crc => { c with crc := up c.crc }
            | .kind => { c with kind := up c.kind }
            | .group => { c with group := up c.group }
            | .full => { c with full := up c.full })
        ∧ x.acks = (if (s.line l).acks.length < 64 then
              (s.line l).acks ++ [.refuse (if data.length < 4 then 0 else ofBe (slice data 2 2)) reason]
            else (s.line l).acks)
        ∧ (x.tx ≠ (s.line l).tx → (s.line l).tx = .idle ∧ x.tx = .joined)

/-- FRAME_END of a frame that passes every check: an entry with the in-progress stamp and class joins the
FIFO's tail, ACCEPTED rises, the flow state is evaluated (R63), and a frame of an urgent kind sets
URGENT (R59). FRAME_END outside a frame: an EOF or an idle ends a discard state (R52). -/
def Obligations.FrameAccepted : Prop :=
  (∀ (s : State) (l : Fin 4) (stamp : Stamp) (cls : TraceClass) (data : List Byte),
      s.ready → (s.line l).frame = some (.stamped stamp cls) →
      let n := ofBe (slice data 4 2)
      8 ≤ n → n ≤ 240 → data.length = 8 + n + 4 →
      (crc32 (data.take (8 + n))).toNat = ofBe (slice data (8 + n) 4) →
      byteAt data 0 ≠ 0 → ¬ (64 ≤ byteAt data 1 ∧ byteAt data 1 ≤ 254) → (s.line l).fifo.length < 32 →
      let urgent : Bool := byteAt data 0 = (s.line l).urgentA || byteAt data 0 = (s.line l).urgentB
      let entry : FifoEntry :=
        { stamp := stamp, cls := cls, kind := byteAt data 0, group := byteAt data 1,
          tag := ofBe (slice data 2 2), payload := slice data 8 n, urgent := urgent }
      ∃ x : Line,
        exec (.frameEnd l data false .eof) s = .next ((s.setLine l x).notifyIf urgent .urgent)
        ∧ x = { s.line l with
            frame := none, discarding := false, fifo := (s.line l).fifo ++ [entry], hold := x.hold,
            flowDue := x.flowDue,
            counters := { (s.line l).counters with
              accepted := min 4294967295 ((s.line l).counters.accepted + 1) } }
        ∧ x.hold = (if (s.line l).hold then
              !(decide (s.pst.records.length ≤ s.pst.params.low) && decide ((s.line l).fifo.length + 1 ≤ 8))
            else decide (s.pst.params.high ≤ s.pst.records.length)
              || decide (24 ≤ (s.line l).fifo.length + 1))
        ∧ (x.flowDue = true ↔ (s.line l).flowDue = true
            ∨ ((s.line l).up = true ∧ x.hold ≠ (s.line l).hold)))
    ∧ ∀ (s : State) (l : Fin 4) (data : List Byte) (malformed : Bool) (how : FrameEnd),
      s.ready → (s.line l).frame = none → how = .eof ∨ how = .idle →
      exec (.frameEnd l data malformed how) s
        = .next (s.setLine l { s.line l with discarding := false })

/-- RESPONSE_SENT: the head of the ack queue leaves it, sent whole (R61, R62, R195). FLOW_SYMBOL_SENT: the
symbol carries the flow state in force and the due mark clears (R64); a free transmitter then begins the
next response unless a flow symbol is due (R62). That it begins it at that very instant, and that the queue
of commands decides whether the idle a response joined in has ended, is log entry 13. No response is sent by
a transmitter that is at none, and no flow symbol inside a response (R62). -/
def Obligations.ReturnDirection : Prop :=
  (∀ (s : State) (l : Fin 4) (r : Response) (rest : List Response), s.ready →
      (s.line l).up = true → (s.line l).tx ≠ .idle → (s.line l).acks = r :: rest →
      let bytes : List Byte := match r with
        | .ack tag seq t => [1#8] ++ beBytes 2 tag ++ beBytes 8 seq ++ beBytes 2 t.epoch
            ++ beBytes 6 t.sec ++ beBytes 4 t.ns
        | .refuse tag reason => [2#8] ++ beBytes 2 tag ++ [BitVec.ofNat 8 reason.code]
      exec (.responseSent l) s = .next { s.setLine l
        { s.line l with
          acks := rest
          tx := if (s.line l).flowDue = false ∧ rest ≠ [] then .response else .idle } with
        wire := .response l bytes :: s.wire })
    ∧ (∀ (s : State) (l : Fin 4), s.ready → (s.line l).up = true → (s.line l).flowDue = true →
      (s.line l).tx ≠ .response →
      exec (.flowSymbolSent l) s = .next { s.setLine l
        { s.line l with
          flowDue := false, tx := if (s.line l).acks = [] then .idle else .response } with
        wire := .flow l (s.line l).hold :: s.wire })
    ∧ ∀ (s : State) (l : Fin 4), s.ready →
      ((s.line l).tx = .idle → exec (.responseSent l) s = .next s)
        ∧ ((s.line l).tx = .response → exec (.flowSymbolSent l) s = .next s)

/-- The flow state of a line at an evaluation (R63), and what a change makes due (R64): from GO to HOLD at
the high mark or a FIFO of 24, from HOLD to GO at the low mark with a FIFO of 8. Every change of the
pending fill evaluates all four lines (R161), and PENDING_HIGH (bit 10) is set exactly when the fill
passes the high mark (R162): whatever the command, a next state with another pending fill leaves each line
with the evaluated flow state, a changed one on a link that is UP with its flow symbol due, and PENDING_HIGH
set if the fill passed the high mark. -/
def Obligations.FlowControl : Prop :=
  (∀ (l : Line) (fill high low : Nat),
      (l.evalFlow fill high low).hold
          = (if l.hold then !(decide (fill ≤ low) && decide (l.fifo.length ≤ 8))
             else decide (high ≤ fill) || decide (24 ≤ l.fifo.length))
        ∧ ((l.evalFlow fill high low).flowDue = true ↔
            l.flowDue = true ∨ (l.up = true ∧ (l.evalFlow fill high low).hold ≠ l.hold))
        ∧ (l.evalFlow fill high low).fifo = l.fifo ∧ (l.evalFlow fill high low).acks = l.acks)
    ∧ (∀ (c : Instr) (s t : State), s.ready → exec c s = .next t →
         let old := s.pst.records.length
         let fill := t.pst.records.length
         fill ≠ old →
         (∀ l : Fin 4,
           ((t.line l).hold = if (s.line l).hold then
               !(decide (fill ≤ t.pst.params.low) && decide ((t.line l).fifo.length ≤ 8))
             else decide (t.pst.params.high ≤ fill) || decide (24 ≤ (t.line l).fifo.length))
           ∧ ((t.line l).up = true → (t.line l).hold ≠ (s.line l).hold → (t.line l).flowDue = true))
         ∧ (old < s.pst.params.high → s.pst.params.high ≤ fill → t.prt.notice.getLsbD 10 = true))
    ∧ ∀ (s : State) (rs : List Record) (l : Fin 4),
      ((s.setRecords rs).line l
          = (s.line l).evalFlow rs.length s.pst.params.high s.pst.params.low)
        ∧ (s.setRecords rs).pst = { s.pst with records := rs }
        ∧ (s.prt.notice.getLsbD 10 = false →
            ((s.setRecords rs).prt.notice.getLsbD 10 = true ↔
              s.pst.records.length < s.pst.params.high ∧ s.pst.params.high ≤ rs.length))

/-! ## The merge (chapter 4) -/

/-- While the numbers last, a head is releasable exactly when PST holds fewer than 1,024 records, a line's ack
queue fewer than 64 entries, and the bound of every other source is later than its stamp, or equal with
that source ranked after its own. At most one head is releasable at any instant. For a head of I the bounds of
the others need only be at or after its stamp; for a head of a line or of E, I's bound is later. Where
nothing of the period is left to be done, the releasable head is released as one record, and the merge waits
when there is none (R77). -/
def Obligations.AtMostOneReleasable : Prop :=
  ∀ s : State, s.sqm.tie ≤ 4 →
    (∀ (a : Source) (t : Stamp), s.headStamp a = some t → s.sqm.exhausted = false →
      let first (b : Source) : Prop := (s.bound b).laterThan t = true
        ∨ (s.bound b = .upTo t ∧ rank s.sqm.tie a < rank s.sqm.tie b)
      (s.releasable a = true ↔ s.pst.records.length < 1024
          ∧ (∀ l : Fin 4, a = .line l → (s.line l).acks.length < 64) ∧ ∀ b : Source, b ≠ a → first b)
        ∧ (a = .internal → ∀ b : Source, b ≠ a →
            (first b ↔ (s.bound b).laterThan t = true ∨ s.bound b = .upTo t))
        ∧ (a ≠ .internal → (first .internal ↔ (s.bound .internal).laterThan t = true)))
      ∧ (∀ a b : Source, s.releasable a = true → s.releasable b = true → a = b)
      ∧ (s.ready → s.workDue = false → s.boundaryDue = false →
          (∀ a : Source, s.releasable a = true → ∃ (t : State) (r : Record), exec .release s = .next t
            ∧ t.pst.records = s.pst.records ++ [r] ∧ r.source = a.code ∧ s.headStamp a = some r.stamp)
          ∧ ((∀ a : Source, s.releasable a = false) → exec .release s = .next s))

/-- I ranks first; the five other sources follow in cyclic order from the tie pointer (R76). After a
contested release the pointer names the source after the winner, who then ranks last; it keeps its value
after any other release (R79). The bounds (R54, R74): a head's stamp, a stamped frame's, now while a line is
OPEN or the event chain ACTIVE, else none; and I's bound is never later than now. -/
def Obligations.TiesAndBounds : Prop :=
  ((∀ tie : Nat, tie ≤ 4 → rank tie .internal = 0
       ∧ (∀ l : Fin 4, rank tie (.line l) = 1 + (l.val + 5 - tie) % 5)
       ∧ rank tie .engine = 1 + (9 - tie) % 5)
     ∧ ∀ (s : State) (a : Source) (t : Stamp), s.sqm.tie ≤ 4 →
       (s.contested a t = true → a ≠ .internal →
           s.tieAfter a t ≤ 4 ∧ rank (s.tieAfter a t) a = 5)
         ∧ (s.contested a t = false ∨ a = .internal → s.tieAfter a t = s.sqm.tie)
         ∧ (s.contested a t = true ↔ ∃ b : Source, b ≠ .internal ∧ b ≠ a ∧ s.bound b = .upTo t))
    ∧ (∀ s : State,
         (∀ l : Fin 4, s.bound (.line l) =
             match (s.line l).fifo, (s.line l).frame with
             | e :: _, _ => .upTo e.stamp
             | [], some (.stamped t _) => .upTo t
             | [], some .closed => if (s.line l).opened then .upTo s.now else .never
             | [], none => if (s.line l).opened then .upTo s.now else .never)
           ∧ (s.bound .engine = match s.evt.fifo with
               | e :: _ => .upTo e.stamp
               | [] => if s.evt.ctx.state = .active then .upTo s.now else .never)
           ∧ ∃ t : Stamp, s.bound .internal = .upTo t ∧ t.ble s.now = true
               ∧ (∀ e ∈ s.sqm.agenda.head?, t.ble e.stamp = true)
               ∧ (t = s.now ∨ ∃ e ∈ s.sqm.agenda.head?, t = e.stamp))

/-- RELEASE of a line's head: the record takes the next number and the phase tag of its group, carries the
stamp and class of the SOF, and enters PST; the pointer moves if contested; ACK with the number and stamp
joins the ack queue; a record tagged CALL is counted (R79 to R83, R94). Work of the period that is still to be
done stays to be done (R78), but that it comes first where its step or set record would be stamped before the
head of any source that is about to be released (R75; log entry 4). -/
def Obligations.ReleaseOfLine : Prop :=
  (∀ s : State, s.ready → s.boundaryDue = false → s.workFirst = true → s.done.workDue = false →
     s.done.boundaryDue = false →
     exec .release s = exec .release s.done)
  ∧ ∀ (s : State) (l : Fin 4) (e : FifoEntry) (rest : List FifoEntry),
    s.releases (.line l) → (s.line l).fifo = e :: rest →
    ∃ (t : State) (tag : PhaseTag), exec .release s = .next t
      ∧ (tag = if h : e.group < 64 then
            match (s.group ⟨e.group, h⟩).phase with
            | .idle => .opened | .armed => .opened | .call => .call | .closing => .closing
            | .closed => .closed
          else .none)
      ∧ t.pst = { s.pst with records := s.pst.records ++ [
          { body := .order e.kind e.payload, source := l.val, cls := e.cls, tag := tag, group := e.group,
            urgent := e.urgent, late := false, steppedOver := false, coalesced := false, count := 1,
            seq := s.sqm.next, stamp := e.stamp, hostTag := e.tag }] }
      ∧ (t.line l).fifo = rest
      ∧ (t.line l).acks = (s.line l).acks ++ [.ack e.tag s.sqm.next e.stamp]
      ∧ (t.sqm = if s.sqm.next < 18446744073709551615 then
            { s.sqm with next := s.sqm.next + 1, tie := s.atInstant.tieAfter (.line l) e.stamp }
          else { s.sqm with exhausted := true, tie := s.atInstant.tieAfter (.line l) e.stamp })
      ∧ (∀ g : Fin 64, t.group g =
          if g.val = e.group ∧ (s.group g).phase = .call then
            { s.group g with callCount := min 4294967295 ((s.group g).callCount + 1) }
          else s.group g)
      ∧ t = { s with pst := t.pst, lines := t.lines, sqm := t.sqm, atu := t.atu, prt := t.prt,
                     ep := t.ep, wire := t.wire }

/-- RELEASE of the engine's head, a STAMP: the record takes the next number and the phase tag of its group and
enters PST; the pointer moves if contested (R79 to R81, R83); a record tagged CALL is counted (R94); and its
number, stamp, class and tag are written back into its slot with status OK, if its mark is set (R81, R156).
Work of the period that is still to be done stays to be done (R78). -/
def Obligations.ReleaseOfStamp : Prop :=
  ∀ (s : State) (e : EngineEntry) (rest : List EngineEntry),
    s.releases .engine → s.carries → s.prt.chains ≠ .waitDone → s.evt.fifo = e :: rest → e.kind = .stamp →
    ∃ (t : State) (r : Record), exec .release s = .next t
      ∧ r.seq = s.sqm.next ∧ r.body = .engine e.payload ∧ r.source = 4 ∧ r.stamp = e.stamp
      ∧ r.cls = e.cls ∧ r.group = e.group ∧ r.hostTag = e.tag.toNat ∧ r.tag = s.tagOf e.group
      ∧ t.sqm = s.numberTaken (s.atInstant.tieAfter .engine e.stamp) ∧ s.callCounted t e.group
      ∧ t.pst.records = s.pst.records ++ [r] ∧ t.evt.fifo = rest
      ∧ (e.writeBack = true →
          t.evt.writeBacks = s.evt.writeBacks ++ [{ block := e.block, seq := s.sqm.next }]
          ∧ t.posted = s.posted ++
            [blockWrite .event e.block (64 + e.offset + 24)
              (leBytes 8 s.sqm.next ++ time12 e.stamp ++ [BitVec.ofNat 8 e.cls.code, 0, 0, 0,
                BitVec.ofNat 8 r.tag.code, 0, 0, 0, 0, 0, 0, 0]),
             { blockWrite .event e.block (64 + e.offset + 4) [2#8] with ends := .writeBack }])
      ∧ (e.writeBack = false → t.evt.writeBacks = s.evt.writeBacks ∧ t.posted = s.posted)
      ∧ t = { s with pst := t.pst, lines := t.lines, sqm := t.sqm, atu := t.atu, evt := t.evt,
                     prt := t.prt, ep := t.ep, wire := t.wire, posted := t.posted }

/-- RELEASE of an EXTEND: in CALL, or in CLOSING, with an extension left and no abandonment pending, an
extension is used and the group is in CALL; a WINDOW of the group that waits (R109), or in CLOSING a CLOSE
(R110), leaves the agenda, and the close-window timer is armed at the new close, or runs out at once if that
is at or before now (R96, R109, R110); the answer is LIMIT when none is left, LATE for a CLOSED group, STATE
otherwise, and then no entry changes but the CALL count (R94, R109 to R111). RELEASE of an engine ABANDON: a
group in CALL or CLOSING with no abandonment pending returns to its power-on values with its waiting records
removed; else STATE, and nothing of the groups changes but the CALL count (R94, R112). Group 255 is refused
with STATE (R111, R112), and the record has no tag. The number is used, the pointer moves if the release was
contested (R79, R80), and a record tagged CALL is counted (R94). The answer is written back into the slot if
its mark is set (R156). The fields reported for group 255, and the epoch of the reported close, are log entry
21. Now and the class are as the work of the period leaves them after the release (`State.releaseReading`);
that work stays to be done, after an EXTEND with the mark of what has been read of it (R2, R36, R78; log entry
5). -/
def Obligations.ReleaseOfEngineRequest : Prop :=
  (∀ (s : State) (e : EngineEntry) (rest : List EngineEntry) (g : Fin 64),
     s.releases .engine → s.carries → s.evt.fifo = e :: rest → e.kind = .extend → e.group = g.val →
     let x := s.group g
     let ok : Prop := x.abandonPending = false ∧ (x.phase = .call ∨ x.phase = .closing) ∧ x.used ≠ x.m
     let status : SlotStatus :=
       if x.abandonPending then .state
       else if x.phase = .closed then .late
       else if x.phase = .idle ∨ x.phase = .armed then .state
       else if x.used = x.m then .limit else .ok
     let v := s.releaseReading .engine
     let tie := ({ s with tb := v.tb, du := v.du } : State).tieAfter .engine e.stamp
     (s.workDue = false → v.tb = s.tb ∧ v.du = s.du) ∧ ∃ (t : State) (r : Record) (a : ExtendResult),
       exec .release s = .next (t.reading.promise .time)
       ∧ t.pst.records = s.pst.records ++ [r] ∧ r.seq = s.sqm.next ∧ r.stamp = e.stamp
       ∧ r.body = .extend a ∧ a.status = status ∧ a.phase = (t.group g).phase ∧ a.used = (t.group g).used
       ∧ (ok → r.tag = .call
           ∧ t.group g = { x with
               phase := .call, used := x.used + 1, callCount := min 4294967295 (x.callCount + 1)
               close := (if x.phase = .call then x.close else e.stamp.instant).add (x.x * 1000000)
               drawn := if x.phase = .call then x.drawn else none
               closeTimer := if x.phase = .call then x.closeTimer else false
               windowTimer := (t.group g).windowTimer }
           ∧ (let kept := s.sqm.agenda.filter fun w => !(w.body.isGroup && w.group == g.val
                && (if x.phase = .call then w.body.isWindow else w.body.isClose))
              let close := (t.group g).close
              let past : Prop := close.sec < v.tb.sec ∨ (close.sec = v.tb.sec ∧ close.ns ≤ v.tb.ns)
              (¬ past → (t.group g).windowTimer = true ∧ t.sqm.agenda = kept)
                ∧ (past → (t.group g).windowTimer = false
                  ∧ (∀ w : Internal, w ∈ t.sqm.agenda ↔ w ∈ kept ∨ w =
                      { stamp := close.at v.tb.epoch, cls := v.du.cls, group := g.val, late := false,
                        steppedOver := false, coalesced := false, count := 1, order := s.sqm.created,
                        body := .window 0 0 none }))))
       ∧ (¬ ok → t.sqm.agenda = s.sqm.agenda ∧ r.tag = s.tagOf g.val
           ∧ t.group g = { x with callCount := x.counted })
       ∧ t.sqm = { s.numberTaken tie with agenda := t.sqm.agenda, created := t.sqm.created }
       ∧ t.atu.alarms = s.atu.alarms ∧ t.atu.generator = s.atu.generator
       ∧ (e.writeBack = true → s.prt.chains ≠ .waitDone → a.close = some ((t.group g).close.at v.tb.epoch)
           ∧ t.posted = s.posted ++ e.backWrites s.sqm.next r.tag status
             ([BitVec.ofNat 8 a.used, 0#8, 0#8] ++ time12? a.close))
       ∧ (e.writeBack = false → t.posted = s.posted)
       ∧ ∀ g' : Fin 64, g' ≠ g → t.group g' = s.group g')
    ∧ (∀ (s : State) (e : EngineEntry) (rest : List EngineEntry) (g : Fin 64),
         s.releases .engine → s.carries → s.evt.fifo = e :: rest → e.kind = .abandon → e.group = g.val →
         let x := s.group g
         let ok : Prop := x.abandonPending = false ∧ (x.phase = .call ∨ x.phase = .closing)
         ∃ (t : State) (r : Record), exec .release s = .next t
           ∧ t.pst.records = s.pst.records ++ [r] ∧ r.seq = s.sqm.next ∧ r.stamp = e.stamp
           ∧ r.body = .abandon { status := if x.abandonPending then .state
                                   else if x.phase = .call ∨ x.phase = .closing then .ok else .state
                                 cause := .engine, phase := x.phase, used := 0, callCount := 0,
                                 close := none, drawn := none }
           ∧ (ok → t.group g = Group.powerOn ∧ r.tag = .opened
               ∧ t.sqm.agenda = s.sqm.agenda.filter fun w => !(w.body.isGroup && w.group == g.val))
           ∧ (¬ ok → t.sqm.agenda = s.sqm.agenda ∧ r.tag = s.tagOf g.val
               ∧ t.group g = { x with callCount := x.counted })
           ∧ t.sqm = { s.numberTaken (s.atInstant.tieAfter .engine e.stamp) with agenda := t.sqm.agenda }
           ∧ t.atu.alarms = s.atu.alarms ∧ t.atu.generator = s.atu.generator
           ∧ (e.writeBack = true → s.prt.chains ≠ .waitDone →
               t.posted = s.posted ++ e.backWrites s.sqm.next r.tag
                 (if x.abandonPending then .state else if x.phase = .call ∨ x.phase = .closing then .ok else .state)
                 ([BitVec.ofNat 8 x.phase.code] ++ pad 6))
           ∧ (e.writeBack = false → t.posted = s.posted)
           ∧ ∀ g' : Fin 64, g' ≠ g → t.group g' = s.group g')
    ∧ (∀ (s : State) (e : EngineEntry) (rest : List EngineEntry),
         s.releases .engine → s.carries → s.evt.fifo = e :: rest → e.group = 255 →
         e.kind = .extend ∨ e.kind = .abandon →
         let v := s.releaseReading .engine
         let tie := ({ s with tb := v.tb, du := v.du } : State).tieAfter .engine e.stamp
         ∃ (t : State) (r : Record), exec .release s = .next (if e.kind = .extend then t.reading.promise .time else t)
           ∧ t.pst.records = s.pst.records ++ [r] ∧ r.seq = s.sqm.next ∧ r.stamp = e.stamp ∧ r.tag = .none
           ∧ (e.kind = .extend →
               r.body = .extend { status := .state, phase := .idle, used := 0, close := none })
           ∧ (e.kind = .abandon → r.body = .abandon
               { status := .state, cause := .engine, phase := .idle, used := 0, callCount := 0, close := none,
                 drawn := none })
           ∧ (e.writeBack = true → s.prt.chains ≠ .waitDone →
               t.posted = s.posted ++ e.backWrites s.sqm.next .none .state
                 (if e.kind = .extend then pad 15 else pad 7))
           ∧ t.atu = s.atu ∧ t.sqm = s.numberTaken tie)

/-- RELEASE of the agenda's head: the record takes the next number with the stamp, class, flags and count
of its entry; SCHEDULE makes the group ARMED or IDLE (R99), PHASE makes it CALL with a count of 1 (R94,
R102), CLOSE makes it CLOSED, is filled with the CALL count, the extensions used and the number before
its own, and sets AUCTION_CLOSE (bit 12) (R108); an internal ABANDON returns it to power-on (R113), and the
last one with cause RESET completes an AUCTIONS scope, which sets RESET_DONE (bit 14) (R121, R186). A record
that is no group's, a CLOCK, an ALARM, a DISCARD or a RUN, is released with its own body and changes no group;
a DISCARD completes a CHAINS scope that waits for it, which sets RESET_DONE (R174, R186). Work of the period
that is still to be done stays to be done (R78). -/
def Obligations.ReleaseOfGroupRecord : Prop :=
  (∀ (s : State) (e : Internal) (rest : List Internal) (g : Fin 64),
    s.releases .internal → s.sqm.agenda = e :: rest → e.group = g.val → e.body.isGroup = true →
    e.body.isWindow = false →
    let x := s.group g
    ∃ (t : State) (r : Record), exec .release s = .next t
      ∧ t.pst.records = s.pst.records ++ [r] ∧ t.sqm.agenda = rest ∧ t.sqm.tie = s.sqm.tie
      ∧ r.seq = s.sqm.next ∧ r.stamp = e.stamp ∧ r.cls = e.cls ∧ r.source = 5 ∧ r.group = g.val
      ∧ r.late = e.late ∧ r.steppedOver = e.steppedOver ∧ r.coalesced = e.coalesced ∧ r.count = e.count
      ∧ (∀ b, e.body = .schedule b →
          t.group g = { x with phase := if b.disarm then .idle else .armed } ∧ r.tag = .opened
            ∧ r.body = e.body)
      ∧ (∀ late, e.body = .phase late →
          t.group g = { x with phase := .call, callCount := 1 } ∧ r.tag = .call ∧ r.body = e.body)
      ∧ (∀ drawn a b c, e.body = .close drawn a b c →
          t.group g = { x with phase := .closed, drawn := none } ∧ r.tag = .closed
            ∧ t.prt.notice.getLsbD 12 = true
            ∧ r.body = .close drawn x.callCount x.used
                (if s.sqm.next = s.sqm.first then 0 else s.sqm.next - 1))
      ∧ (∀ a, e.body = .abandon a → t.group g = Group.powerOn ∧ r.tag = .opened ∧ r.body = e.body
          ∧ (a.cause = .reset → s.prt.auctions = .waitAbandon →
              let more : Prop := ∃ w ∈ rest, ∃ b, w.body = .abandon b ∧ b.cause = .reset
              (more → t.prt.auctions = .waitAbandon)
                ∧ (¬ more → t.prt.auctions = .idle ∧ t.prt.notice.getLsbD 14 = true)))
      ∧ ((∀ a, e.body = .abandon a → a.cause ≠ .reset) → t.prt.auctions = s.prt.auctions)
      ∧ t.prt.chains = s.prt.chains
      ∧ ∀ g' : Fin 64, g' ≠ g → t.group g' = s.group g')
    ∧ ∀ (s : State) (e : Internal) (rest : List Internal),
      s.releases .internal → s.sqm.agenda = e :: rest → 64 ≤ e.group → e.body.isGroup = false →
      (∀ a, e.body ≠ .attest a) →
      ∃ (t : State) (r : Record), exec .release s = .next t
        ∧ t.pst = { s.pst with records := s.pst.records ++ [r] } ∧ t.sqm.agenda = rest
        ∧ t.sqm.tie = s.sqm.tie
        ∧ r = { body := e.body, source := 5, cls := e.cls, tag := .none, group := e.group, urgent := false,
                late := e.late, steppedOver := e.steppedOver, coalesced := e.coalesced, count := e.count,
                seq := s.sqm.next, stamp := e.stamp, hostTag := 0 }
        ∧ (∀ a b, e.body = .discard a b → s.prt.chains = .waitDiscard →
            t.prt.chains = .idle ∧ t.prt.notice.getLsbD 14 = true)
        ∧ ((∀ a b, e.body ≠ .discard a b) → t.prt.chains = s.prt.chains)
        ∧ t.prt.auctions = s.prt.auctions
        ∧ t = { s with pst := t.pst, lines := t.lines, sqm := t.sqm, prt := t.prt, ep := t.ep, wire := t.wire }

/-- RELEASE of a WINDOW: the generator advances 32 steps to G, offset_ms = ⌊G × (W + 1) / 2^32⌋ lies within
0 to W, the close is drawn at the scheduled close plus offset_ms, the phase becomes CLOSING, the three
values are written into the record, and the close timer is armed unless the drawn close is at or before
now or a passed-over limit that is present, when CLOSE is created at once, in the second case flagged
STEPPED_OVER (R104, R106, R114). Now and the class are as the work of the period leaves them after the
release (`State.releaseReading`); that work stays to be done, with the mark of what has been read of it (R2,
R36, R78; log entry 5). -/
def Obligations.ReleaseOfWindow : Prop :=
  ∀ (s : State) (e : Internal) (rest : List Internal) (g : Fin 64) (a b : Nat) (d : Option Stamp),
    s.releases .internal → s.sqm.agenda = e :: rest → e.group = g.val → e.body = .window a b d →
    let x := s.group g
    let value := genDraw s.atu.generator
    let offset := value.toNat * (x.w + 1) / 4294967296
    let drawn : Stamp := (x.close.add (offset * 1000000)).at e.stamp.epoch
    let stepped : Bool := match x.passedOver with | some limit => drawn.ble limit | none => false
    let v := s.releaseReading .internal
    let past : Bool := stepped || drawn.ble v.now
    offset ≤ x.w ∧ (s.workDue = false → v.tb = s.tb ∧ v.du = s.du) ∧ ∃ (t : State) (r : Record),
        exec .release s = .next (t.reading.promise .time)
      ∧ t.atu.generator = value ∧ t.pst.records = s.pst.records ++ [r] ∧ r.seq = s.sqm.next
      ∧ r.body = .window value.toNat offset (some drawn) ∧ r.tag = .closing
      ∧ t.group g = { x with phase := .closing, drawn := some drawn, closeTimer := !past }
      ∧ (past = false → t.sqm.agenda = rest)
      ∧ (past = true → ∃ w ∈ t.sqm.agenda, w.stamp = drawn ∧ w.cls = v.du.cls ∧ w.group = g.val
          ∧ w.steppedOver = stepped ∧ w.body = .close drawn 0 0 0)
      ∧ ∀ g' : Fin 64, g' ≠ g → t.group g' = s.group g'

/-- ATTEST_BOUNDARY: the period closes at the boundary into an ATTEST record with the attestation period, the
accumulators, the end values and each check input's settings and evidence (R127, R133, R134), the line
counters are read and zeroed, and the accumulators restart from the values in force (R70, R123, R124, R126 to
R128). The end values are those that the work of the period leaves (R36), and these count in both periods; the
work is still to be done, with the mark that they have been read, and its hand-overs count in the period that
begins (R125). That the values before such work count in that period too is log entry 22. RELEASE of an
ATTEST: its range runs from the range start, or the run's first number, to the number before its own, and the
next range starts after it (R130). -/
def Obligations.Attestation : Prop :=
  (∀ s : State, s.ready → s.boundaryDue = true →
     (∀ e ∈ s.sqm.agenda, ∀ a, e.body ≠ .attest a) →
     let b : Stamp := ⟨s.tb.epoch, s.att.nextBoundary, 0⟩
     let v := s.left
     let end_ := if s.att.nextBoundary + s.att.period < 281474976710656
       then s.att.nextBoundary + s.att.period else 0
     ∃ (t : State) (a : Attest), exec .attestBoundary s = .next (t.promise .values) ∧ t.holds b v.du.cls (.attest a)
       ∧ a.periodStart = s.att.periodStart ∧ a.periodEnd = b
       ∧ a.worstState = s.att.worstState.worse v.du.state ∧ a.worstCls = s.att.worstCls.worse v.du.cls
       ∧ a.eMax = max s.att.eMax v.du.e
       ∧ a.servoSeconds = s.att.servoSeconds ∧ a.theta = s.att.theta ∧ a.stepHeld = s.att.stepHeld
       ∧ a.stateEnd = v.du.state ∧ a.clsEnd = v.du.cls ∧ a.eEnd = v.du.e ∧ a.cEnd = v.du.c
       ∧ a.iEnd = v.du.i ∧ a.utcOffset = v.tb.utcOffset
       ∧ a.leap = s.att.leap ∧ a.quality = s.att.quality ∧ a.accuracy = s.att.accuracy
       ∧ a.period = s.att.period
       ∧ (let evidence (k : Check) : CheckEvidence :=
            { enabled := k.enabled, filter := k.filter, limit := k.limit, edges := k.edges, offset := k.offset,
              double := k.double, disagree := k.disagree, missing := k.missing }
          a.chk0 = evidence s.att.chk0 ∧ a.chk1 = evidence s.att.chk1)
       ∧ (∀ l : Fin 4, a.counters.get l = (s.line l).counters.plus (s.att.carried.get l)
           ∧ t.line l = { s.line l with counters := Counters.zero })
       ∧ t.att = { s.att with
           periodStart := b, nextBoundary := end_, worstState := s.du.state.worse v.du.state
           worstCls := s.du.cls.worse v.du.cls, eMax := max s.du.e v.du.e, servoSeconds := 0, theta := none
           stepHeld := s.tb.demand.isSome || v.tb.demand.isSome
           carried := Quad.all Counters.zero
           chk0 := { s.att.chk0 with edges := 0, offset := none, double := false, disagree := false,
                                     missing := 0 }
           chk1 := { s.att.chk1 with edges := 0, offset := none, double := false, disagree := false,
                                     missing := 0 } }
       ∧ t = { s with sqm := t.sqm, lines := t.lines, att := t.att })
    ∧ (∀ (s : State) (e : Internal) (rest : List Internal) (a : Attest),
         s.releases .internal → s.sqm.agenda = e :: rest → e.body = .attest a → 64 ≤ e.group →
         ∃ (t : State) (r : Record), exec .release s = .next t
           ∧ t.pst.records = s.pst.records ++ [r] ∧ t.sqm.agenda = rest ∧ r.seq = s.sqm.next ∧ r.tag = .none
           ∧ r.body = .attest { a with first := s.att.rangeStart.getD s.sqm.first, last := s.sqm.next - 1 }
           ∧ t.att = { s.att with rangeStart :=
               if s.sqm.next < 18446744073709551615 then some (s.sqm.next + 1) else none }
           ∧ t.atu = s.atu)

/-- SET_SEQUENCE: RANGE for a next number of 0, STATE unless the part is quiet; else the counter, the run's
first number and the run identifier are replaced, a RUN record stamped now is released at once under the run's
first number, ahead of the work of its period (R84; log entries 4 and 5), and ATT's range start becomes absent
(R84, R85, R130). That RANGE and STATE write the status alone is the model's choice (log entry 20). -/
def Obligations.SetSequence : Prop :=
  ∀ (s : State) (off : Nat) (h : SlotHead) (next : BitVec 64) (run : BitVec 32), s.requestAt 0x07 off h →
    let quiet : Prop := (∀ l : Fin 4, (s.line l).opened = false ∧ (s.line l).fifo = []
        ∧ (s.line l).frame = none) ∧ s.evt.fifo = [] ∧ s.evt.ctx.state ≠ .active
      ∧ s.pst.records = [] ∧ s.sqm.agenda = []
    let base : State := { s with
      sqm := { s.sqm with next := next.toNat, first := next.toNat, run := run.toNat, exhausted := false }
      att := { s.att with rangeStart := none } }
    (next = 0#64 → exec (.setSequence next run) s = .next (s.slotAnswered off h 16 [] .range))
      ∧ (next ≠ 0#64 → ¬ quiet →
          exec (.setSequence next run) s = .next (s.slotAnswered off h 16 [] .state))
      ∧ (next ≠ 0#64 → quiet → ∃ t : State, exec (.setSequence next run) s
            = .next (t.left.slotAnswered off h 16
                (leBytes 8 s.sqm.next ++ leBytes 4 s.sqm.run ++ [0, 0, 0, 0]) .ok)
          ∧ (∃ r : Record, t.pst = { s.pst with records := [r] } ∧ r.seq = next.toNat
              ∧ r.stamp = base.left.now ∧ r.cls = base.left.du.cls ∧ r.source = 5 ∧ r.tag = .none
              ∧ r.body = .run run.toNat next.toNat)
          ∧ t.sqm = { s.sqm with
              next := if next.toNat < 18446744073709551615 then next.toNat + 1 else next.toNat
              first := next.toNat, run := run.toNat, agenda := [], created := s.sqm.created + 1
              exhausted := decide (next.toNat = 18446744073709551615) }
          ∧ t.att = { s.att with rangeStart := none }
          ∧ t = { s with pst := t.pst, sqm := t.sqm, att := t.att, lines := t.lines, prt := t.prt,
                         ep := t.ep, wire := t.wire })

/-! ## Auctions and alarms (chapter 5) -/

/-- The generator: a 1 in the lowest bit shifts right and is XORed with 0x80200003, a 0 shifts right; the
first steps from 1; a state that is not 0 yields one that is not 0, and no step of the machine makes it 0; it
is 1 after power-on, FULL and AUCTIONS; a WINDOW's release advances it, by the 32 steps of a draw, and
SET_SEED replaces it (R104). -/
def Obligations.Generator : Prop :=
  (∀ g : BitVec 32, genStep g = if g.getLsbD 0 then (g >>> 1) ^^^ 0x80200003#32 else g >>> 1)
    ∧ (genStep 0x00000001#32 = 0x80200003#32 ∧ genStep 0x80200003#32 = 0xC0300002#32
      ∧ genStep 0xC0300002#32 = 0x60180001#32 ∧ genStep 0x60180001#32 = 0xB02C0003#32)
    ∧ (∀ g : BitVec 32, g ≠ 0#32 → genStep g ≠ 0#32 ∧ genDraw g ≠ 0#32
        ∧ (g.getLsbD 0 = true → (genStep g).getLsbD 31 = true))
    ∧ (∀ g : BitVec 32, genDraw g = genStep^[32] g)
    ∧ State.reset.atu.generator = 1#32
    ∧ (∀ s : State,
        (∃ t : State, exec .powerOn s = .next t ∧ t.atu.generator = 1#32)
          ∧ (s.served → (∃ t : State, exec .full s = .next t ∧ t.atu.generator = 1#32)
            ∧ (s.prt.auctions = .idle → ∃ t : State, exec .auctions s = .next t ∧ t.atu.generator = 1#32)))
    ∧ (∀ s t : State, s.atu.generator ≠ 0#32 → step s = .next t → t.atu.generator ≠ 0#32)
    ∧ (∀ (s : State) (e : Internal) (rest : List Internal) (g : Fin 64), s.releases .internal →
        s.sqm.agenda = e :: rest → e.group = g.val → e.body.isWindow = true →
        ∃ t : State, exec .release s = .next t ∧ t.atu.generator = genStep^[32] s.atu.generator)
    ∧ ∀ (s : State) (off : Nat) (h : SlotHead) (seed : BitVec 32), s.requestAt 0x0A off h →
      ∃ t : State, exec (.setSeed seed) s = .next t
        ∧ t.atu.generator = if seed = 0#32 then 1#32 else seed

/-- CALL_OPEN_TIMER, CLOSE_WINDOW_TIMER and CLOSE_TIMER: at the period at which the counter reaches the
instant, the timer is disarmed and its record is created, stamped at the instant in the epoch in force with
the class in force, as the work of the period leaves it (R36); the phase does not change (R96, R101, R103,
R107). ALARM_TIMER: the ALARM record is created at the instant, or merged into the one that waits, with LATE
as the entry's mark says; a one-shot becomes absent, a periodic alarm's next instant advances by the period
and its mark clears; ALARM is set (R119). Work of the period that is still to be done stays to be done, with
the mark that its class has been read (`State.promise`; log entry 5). -/
def Obligations.AuctionTimers : Prop :=
  (∀ (s : State) (g : Fin 64), s.powered = true → s.osc = true →
     (s.callOpenDue g = true →
         exec (.callOpenTimer g) s = .next ((s.setGroup g { s.group g with callTimer := false }).create
           ⟨s.tb.epoch, (s.group g).callOpen.sec, (s.group g).callOpen.ns⟩ s.left.du.cls g.val false false
           (.phase false) |>.promise .cls))
       ∧ (s.windowDue g = true →
         exec (.closeWindowTimer g) s = .next ((s.setGroup g { s.group g with windowTimer := false }).create
           ⟨s.tb.epoch, (s.group g).close.sec, (s.group g).close.ns⟩ s.left.du.cls g.val false false
           (.window 0 0 none) |>.promise .cls))
       ∧ ∀ drawn : Stamp, s.closeDue g = true → (s.group g).drawn = some drawn →
         exec (.closeTimer g) s = .next ((s.setGroup g { s.group g with closeTimer := false }).create
           drawn s.left.du.cls g.val false false (.close drawn 0 0 0) |>.promise .cls))
    ∧ (∀ s : State,
         let due : Prop := s.actionDue = true ∨ s.missingDue = true ∨ s.holdoverDue = true
         (¬ due → s.promise .cls = s)
           ∧ (due → ∃ p : Promise, s.promise .cls = { s with clock := { s.clock with promised := p } }
               ∧ 1 ≤ p.rank ∧ s.clock.promised.rank ≤ p.rank))
    ∧ (∀ (s : State) (a : Fin 8) (x : Alarm), s.powered = true → s.osc = true → s.alarm a = some x →
         s.alarmDue a = true →
         exec (.alarmTimer a) s = .next (((s.setAlarm a (if x.period = 0 then none
             else some { period := x.period, next := x.next.add (x.period * 1000000), late := false })).create
           ⟨s.tb.epoch, x.next.sec, x.next.ns⟩ s.left.du.cls 255 x.late false (.alarm a.val 0)).notify .alarm
             |>.promise .cls))

/-- An internal record created: it joins the agenda with its stamp, class, flags and a count of 1 if no
record of its class waits, else it is merged into that one, whose count rises and which becomes
COALESCED but keeps its stamp, class and creation order; nothing else changes (R86, R87). The bodies merge as
the rules say: an ALARM's missed count rises by the instants that arrive (R119, R120), a DISCARD takes the
arriving last number, a CLOCK keeps its old values and takes the arriving new ones, each part of a PARAMS for
itself (R87), and an ATTEST takes the arriving snapshot over the period from its own start (R129). -/
def Obligations.RecordCreated : Prop :=
  ∀ (s : State) (stamp : Stamp) (cls : TraceClass) (group : Nat) (late stepped : Bool) (body : Body),
    let t := s.create stamp cls group late stepped body
    let new : Internal :=
      { stamp := stamp, cls := cls, group := group, late := late, steppedOver := stepped,
        coalesced := false, count := 1, order := s.sqm.created, body := body }
    t = { s with sqm := { s.sqm with created := s.sqm.created + 1, agenda := t.sqm.agenda } }
      ∧ ((∀ w ∈ s.sqm.agenda, w.body.sameClass body = false) →
          ∀ w, w ∈ t.sqm.agenda ↔ w = new ∨ w ∈ s.sqm.agenda)
      ∧ ∀ w ∈ s.sqm.agenda, w.body.sameClass body = true →
          t.sqm.agenda.length = s.sqm.agenda.length
            ∧ ∃ m ∈ t.sqm.agenda, m.stamp = w.stamp ∧ m.cls = w.cls ∧ m.order = w.order
              ∧ m.count = min 65535 (w.count + 1) ∧ m.coalesced = true
              ∧ m.steppedOver = (w.steppedOver || stepped)
              ∧ (∀ i n k, w.body = .alarm i n → body = .alarm i k →
                  m.body = .alarm i (min 65535 (n + (k + 1))))
              ∧ (∀ a b a' b', w.body = .discard a b → body = .discard a' b' → m.body = .discard a b')
              ∧ (∀ θ₀ l₀ old θ l new, w.body = .clock θ₀ l₀ old → body = .clock θ l new →
                  ∃ both, m.body = .clock θ l both
                    ∧ (∀ o₁ n₁ c₁ q₁ r₁ g₁ b₁ x₁ o n c q r g b x,
                        old = .state o₁ n₁ c₁ q₁ r₁ g₁ b₁ x₁ → new = .state o n c q r g b x →
                        both = .state o₁ n c q r g b x)
                    ∧ (∀ o₁ n₁ o n, old = .step o₁ n₁ → new = .step o n → both = .step o₁ n)
                    ∧ (∀ o₁ n₁ o n, old = .set o₁ n₁ → new = .set o n → both = .set o₁ n)
                    ∧ (∀ o₁ n₁ o n, old = .offset o₁ n₁ → new = .offset o n → both = .offset o₁ n)
                    ∧ (∀ o₁ n₁ e₁ d₁ o n e d, old = .trace o₁ n₁ e₁ d₁ → new = .trace o n e d →
                        both = .trace o₁ n e d)
                    ∧ (∀ o₁ n₁ d₁ b₁ o n d b, old = .held o₁ n₁ d₁ b₁ → new = .held o n d b →
                        both = .held o₁ n d b)
                    ∧ ∀ p₁ q₁ p q, old = .params p₁ q₁ → new = .params p q → ∃ x y, both = .params x y
                      ∧ (p = none → x = p₁) ∧ (q = none → y = q₁)
                      ∧ (∀ a, p = some a → x = some { a with old := match p₁ with
                          | some z => z.old | none => a.old })
                      ∧ ∀ a, q = some a → y = some { a with old := match q₁ with
                          | some z => z.old | none => a.old })
              ∧ ∀ z a, w.body = .attest z → body = .attest a →
                  let check (x y : CheckEvidence) : CheckEvidence := { y with
                    edges := min 15 (x.edges + y.edges), missing := min 65535 (x.missing + y.missing)
                    offset := if y.offset.isSome then y.offset else x.offset
                    double := x.double || y.double, disagree := x.disagree || y.disagree }
                  ∃ counters : Quad Counters, (∀ l, counters.get l = (z.counters.get l).plus (a.counters.get l))
                    ∧ m.body = .attest { a with
                      periodStart := z.periodStart, worstState := z.worstState.worse a.worstState
                      worstCls := z.worstCls.worse a.worstCls, eMax := max z.eMax a.eMax
                      servoSeconds := min 65535 (z.servoSeconds + a.servoSeconds)
                      theta := (match z.theta, a.theta with
                        | some x, some y => some { last := y.last, min := min x.min y.min, max := max x.max y.max }
                        | some x, none => some x
                        | none, y => y)
                      stepHeld := z.stepHeld || a.stepHeld, counters := counters
                      chk0 := check z.chk0 a.chk0, chk1 := check z.chk1 a.chk1 }

/-- ARM_GROUP: the tests of R97 in order; a legal one replaces the schedule, arms the call-open timer at the
effective instant and the close-window timer at the scheduled close, and creates SCHEDULE; a late call-open
runs out within the take, its PHASE flagged LATE (R98). The phase does not change (R99). DISARM_GROUP: RANGE
above 63, STATE in CALL, in CLOSING or while busy, no effect on an IDLE group; a legal one clears the
schedule and its timers at take and creates SCHEDULE with cause DISARM; the phase changes at that record's
release (R100). A request that reads now and the class does so after the work of the period (R2, R36; log
entry 5), which may have made the group busy (R114). That ARM_GROUP
reports phase IDLE for an index above 63, and that a refused DISARM_GROUP writes the status alone, is the
model's choice (log entry 20). -/
def Obligations.GroupRequests : Prop :=
  (∀ (s : State) (off : Nat) (h : SlotHead) (group m : Byte) (w x : BitVec 32) (open_ close : HostTime),
     s.requestAt 0x08 off h →
     let run := exec (.armGroup group m w x open_ close) s
     (64 ≤ group.toNat → run = .next (s.slotAnswered off h 48 (pad 24) .range))
       ∧ ∀ g : Fin 64, g.val = group.toNat →
         let v := s.left
         let old := v.group g
         let phase := old.phase
         let refused (u : State) (st : SlotStatus) :=
           run = .next (u.slotAnswered off h 48 ([BitVec.ofNat 8 (u.group g).phase.code] ++ pad 23) st)
         let closed (u : State) : Prop := (u.group g).phase = .call ∨ (u.group g).phase = .closing
           ∨ ∃ e ∈ u.sqm.agenda, e.body.isGroup = true ∧ e.group = g.val
         let o : Instant := ⟨open_.sec.toNat, open_.ns.toNat⟩
         let c : Instant := ⟨close.sec.toNat, close.ns.toNat⟩
         let fits : Prop := o.ns ≤ 999999999 ∧ c.ns ≤ 999999999 ∧ w.toNat ≤ 300000 ∧ 1 ≤ x.toNat
           ∧ x.toNat ≤ 3600000 ∧ m.toNat ≤ 15 ∧ (o.sec < c.sec ∨ (o.sec = c.sec ∧ o.ns < c.ns))
         let past (i : Instant) : Prop := i.sec < v.tb.sec ∨ (i.sec = v.tb.sec ∧ i.ns ≤ v.tb.ns)
         let e : Instant := if past o then ⟨v.tb.sec, v.tb.ns⟩ else o
         let entry : Group := { old with
           callOpen := e, close := c, w := w.toNat, x := x.toNat, m := m.toNat, used := 0, drawn := none,
           callCount := 0, callTimer := true, windowTimer := true, closeTimer := false,
           passedOver := none }
         let armed := (v.setGroup g entry).create v.now v.du.cls g.val false false
           (.schedule { disarm := false, phase := phase, m := m.toNat, w := w.toNat, x := x.toNat,
                        requested := some (o.at v.tb.epoch), effective := some (e.at v.tb.epoch),
                        close := some (c.at v.tb.epoch) })
         let result := [BitVec.ofNat 8 phase.code] ++ pad 7 ++ time16 (e.at v.tb.epoch)
         (closed s → refused s .state)
           ∧ (¬ closed s → ¬ fits → refused s .range)
           ∧ (¬ closed s → fits → closed v → refused v .state)
           ∧ (¬ closed s → fits → ¬ closed v → past c → refused v .late)
           ∧ (¬ closed s → fits → ¬ closed v → ¬ past c → ¬ past o →
               run = .next (armed.slotAnswered off h 48 result .ok))
           ∧ (¬ closed s → fits → ¬ closed v → ¬ past c → past o →
               run = .next (((armed.setGroup g { entry with callTimer := false }).create v.now v.du.cls g.val
                 true false (.phase true)).slotAnswered off h 48 result .ok)))
    ∧ (∀ (s : State) (off : Nat) (h : SlotHead) (group : Byte), s.requestAt 0x09 off h →
         let run := exec (.disarmGroup group) s
         (64 ≤ group.toNat → run = .next (s.slotAnswered off h 8 [] .range))
           ∧ ∀ g : Fin 64, g.val = group.toNat →
             let v := s.left
             let phase := (v.group g).phase
             let closed (u : State) : Prop := (u.group g).phase = .call ∨ (u.group g).phase = .closing
               ∨ ∃ e ∈ u.sqm.agenda, e.body.isGroup = true ∧ e.group = g.val
             (closed s → run = .next (s.slotAnswered off h 8 [] .state))
               ∧ (¬ closed s → (s.group g).phase = .idle →
                   run = .next (s.slotAnswered off h 8 ([BitVec.ofNat 8 GroupPhase.idle.code] ++ pad 7) .ok))
               ∧ (¬ closed s → (s.group g).phase ≠ .idle → closed v →
                   run = .next (v.slotAnswered off h 8 [] .state))
               ∧ (¬ closed s → (s.group g).phase ≠ .idle → ¬ closed v →
                   run = .next (((v.setGroup g { Group.powerOn with phase := phase }).create v.now v.du.cls
                     g.val false false (.schedule {
                       disarm := true, phase := phase, m := 0, w := 0, x := 0
                       requested := none, effective := none, close := none })).slotAnswered off h 8
                         ([BitVec.ofNat 8 phase.code] ++ pad 7) .ok)))

/-- SET_SEED: the generator becomes the seed, or 1 for a seed of 0; the result area receives the state
before and the value used; no record (R105). SET_ALARM: RANGE for an index, a nanoseconds field or a period
out of range; else the entry is present with the period; a first instant at or before now is replaced by now
and runs out at once, LATE (R117, R119), with now and the class read after the work of the period (R2, R36; log
entry 5). That RANGE writes the status alone is the model's choice (log entry 20). -/
def Obligations.SeedAndAlarm : Prop :=
  (∀ (s : State) (off : Nat) (h : SlotHead) (seed : BitVec 32), s.requestAt 0x0A off h →
     let used := if seed = 0#32 then 1#32 else seed
     exec (.setSeed seed) s = .next (({ s with atu := { s.atu with generator := used } } :
       State).slotAnswered off h 8 (leBytes 4 s.atu.generator.toNat ++ leBytes 4 used.toNat) .ok))
    ∧ (∀ (s : State) (off : Nat) (h : SlotHead) (index : Byte) (period : BitVec 32) (first : HostTime),
         s.requestAt 0x0B off h →
         let run := exec (.setAlarm index period first) s
         let f : Instant := ⟨first.sec.toNat, first.ns.toNat⟩
         let v := s.left
         let past : Prop := f.sec < v.tb.sec ∨ (f.sec = v.tb.sec ∧ f.ns ≤ v.tb.ns)
         (7 < index.toNat ∨ 999999999 < f.ns ∨ 3600000 < period.toNat →
             run = .next (s.slotAnswered off h 24 [] .range))
           ∧ ∀ a : Fin 8, a.val = index.toNat → f.ns ≤ 999999999 → period.toNat ≤ 3600000 →
             (¬ past → run = .next ((v.setAlarm a
                 (some { period := period.toNat, next := f, late := false })).slotAnswered off h 24
                   (time16 (f.at v.tb.epoch) ++ pad 8) .ok))
               ∧ (past → run = .next ((((v.setAlarm a (if period = 0#32 then none
                   else some { period := period.toNat,
                               next := v.instant.add (period.toNat * 1000000), late := false })).create
                     v.now v.du.cls 255 true false (.alarm a.val 0)).notify .alarm).slotAnswered off h 24
                   (time16 v.now ++ [1] ++ pad 7) .ok)))

/-- CANCEL_ALARM: RANGE above 7; else the entry becomes absent, the result area receives whether it was
present, and a record of the index that waits stays, as everything else does (R118). An entry that is present
is cancelled after the work of the period, so that an instant at or before now has run out (R2, R96, R120; log
entry 5). That RANGE writes the
status alone is the model's choice (log entry 20). -/
def Obligations.CancelAlarm : Prop :=
  ∀ (s : State) (off : Nat) (h : SlotHead) (index : Byte), s.requestAt 0x0C off h →
    (7 < index.toNat → exec (.cancelAlarm index) s = .next (s.slotAnswered off h 8 [] .range))
      ∧ ∀ a : Fin 8, a.val = index.toNat →
        (s.alarm a = none → exec (.cancelAlarm index) s = .next (s.slotAnswered off h 8 (pad 8) .ok))
          ∧ (s.alarm a ≠ none → let v := s.left
              exec (.cancelAlarm index) s = .next ((v.setAlarm a none).slotAnswered off h 8
                ([if (v.alarm a).isSome then 1 else 0] ++ pad 7) .ok))

/-- LINES: every line is reset with its urgent kinds kept, its flow state evaluated with an empty FIFO; ATT
takes every line counter into its carried counts first; LINE_CHANGE (bit 13) is set if a link was UP, and
RESET_DONE (bit 14) (R71, R128, R186). AUCTIONS: every group and alarm record leaves the agenda, every group
and alarm entry and the generator take their power-on values; an ABANDON record with cause RESET, stamped
now, is created for each group that was in CALL or CLOSING, and the scope is in progress until their
release; with none it completes at once and sets RESET_DONE (bit 14) (R121, R186). One in progress is not
started again (R185). Where such records are stamped, the work of the period is done first, with the groups
reset (R2, R11, R36; log entry 5). -/
def Obligations.LinesAndAuctionsScopes : Prop :=
  (∀ s : State, s.served →
     ∃ t : State, exec .lines s = .next t
       ∧ (∀ l : Fin 4, t.line l = { Line.powerOn with
             urgentA := (s.line l).urgentA, urgentB := (s.line l).urgentB
             hold := if (s.line l).hold then decide (s.pst.params.low < s.pst.records.length)
               else decide (s.pst.params.high ≤ s.pst.records.length) }
           ∧ t.att.carried.get l = (s.att.carried.get l).plus (s.line l).counters)
       ∧ t.prt.notice.getLsbD 14 = true
       ∧ ((∃ l : Fin 4, (s.line l).up = true) → t.prt.notice.getLsbD 13 = true)
       ∧ t.att = { s.att with carried := t.att.carried }
       ∧ t = { s with lines := t.lines, att := t.att, prt := t.prt, ep := t.ep, wire := t.wire })
    ∧ (∀ s : State, s.served →
         let base : State := { s with
           atu := ATU.powerOn
           sqm := { s.sqm with agenda := s.sqm.agenda.filter fun e =>
             !(e.body.isGroup || (match e.body with | .alarm .. => true | _ => false)) } }
         let v := base.left
         let running (g : Fin 64) : Prop := (s.group g).phase = .call ∨ (s.group g).phase = .closing
         (s.prt.auctions ≠ .idle → exec .auctions s = .next s)
           ∧ (s.prt.auctions = .idle → (∀ g, ¬ running g) →
             exec .auctions s = .next (base.notify .resetDone))
           ∧ (s.prt.auctions = .idle → (∃ g, running g) → ∃ t : State, exec .auctions s = .next t
             ∧ t.atu = ATU.powerOn
             ∧ (∀ e ∈ t.sqm.agenda, e.body.isGroup = true → ∃ g : Fin 64, running g ∧ e.group = g.val
                 ∧ e.stamp = v.now ∧ e.body = (s.group g).abandonBody .reset v.tb.epoch)
             ∧ (∀ g : Fin 64, running g → ∃ e ∈ t.sqm.agenda, e.group = g.val ∧ e.stamp = v.now
                 ∧ e.cls = v.du.cls ∧ e.body = (s.group g).abandonBody .reset v.tb.epoch)
             ∧ (∀ e ∈ t.sqm.agenda, ∀ i n, e.body ≠ .alarm i n)
             ∧ (∀ e ∈ t.sqm.agenda, e.body.isGroup = true ∨ e ∈ v.sqm.agenda)
             ∧ (∀ e ∈ v.sqm.agenda, e ∈ t.sqm.agenda)
             ∧ t = { v with sqm := t.sqm, prt := { v.prt with auctions := .waitAbandon } }))

/-! ## Evidence (chapter 6) -/

/-- CHECK_RISING_TRANSITION on an enabled input holds the provisional latch and the filter in force;
CHECK_PULSE_DROPPED before the filter has passed leaves no trace of the pulse (R132). CHECK_EDGE_RECOGNIZED,
once the input has stayed high for the filter's length of own time: the latch, the signed offset, the edge
count, DOUBLE for a second edge in one venue second, and DISAGREE with CHECK_DISAGREE beyond the limit (R132,
R133). No time, class, E or discipline state changes. CHECK_SECOND_JUDGED at a carry of the ordinary advance:
an enabled input whose watched mark is set and which recognized no edge in the second that ended counts it;
the mark is set; a disabled input is not judged (R134). A second is judged once. Now is read after an action
instant of the period (R2; log entry 5). That a new rise replaces a pulse still held and not yet due is log
entry 33; a drop or a rise after the filter has passed is left out. -/
def Obligations.CheckInputs : Prop :=
  (∀ (s : State) (k : CheckInput), s.ready →
     let v := s.acted
     ((s.check k).enabled = true → s.edgeDue (s.check k) = false →
         exec (.checkRisingTransition k) s = .next (v.setCheck k { v.check k with
           pulse := some { stamp := v.now, riseOwn := s.clock.own, filter := (s.check k).filter } }))
       ∧ ((s.check k).enabled = false → exec (.checkRisingTransition k) s = .next s)
       ∧ (s.edgeDue (s.check k) = false →
         exec (.checkPulseDropped k) s = .next (s.setCheck k { s.check k with pulse := none })))
    ∧ (∀ (s : State) (k : CheckInput) (p : Pulse), s.ready → (s.check k).pulse = some p →
         p.filter.span ≤ (s.clock.own - p.riseOwn) / 4294967296 → s.clock.carried = false →
         let v := s.acted
         let x := v.check k
         let offset : Int := if p.stamp.ns < 500000000 then p.stamp.ns else p.stamp.ns - 1000000000
         let far : Prop := x.limit < offset.natAbs
         let now := v.now
         exec (.checkEdgeRecognized k) s = .next ((v.setCheck k { x with
             pulse := none, latch := some p.stamp, offset := some offset, edges := min 15 (x.edges + 1)
             double := x.double || decide (x.lastEpoch = some now.epoch ∧ x.lastSec = now.sec)
             disagree := x.disagree || decide far
             lastEpoch := some now.epoch, lastSec := now.sec }).notifyIf (decide far) .checkDisagree))
    ∧ (∀ s : State, s.ready → s.clock.carried = true →
         let judged (x : Check) : Check :=
           if x.enabled then
             { x with
               missing := if x.watched ∧ ¬ (x.lastEpoch = some s.tb.epoch ∧ x.lastSec = s.clock.prev.sec)
                 then min 65535 (x.missing + 1) else x.missing
               watched := true }
           else x
         exec .checkSecondJudged s = .next { s with
           att := { s.att with chk0 := judged s.att.chk0, chk1 := judged s.att.chk1 }
           clock := { s.clock with carried := false } })
    ∧ (∀ s : State, s.ready → s.clock.carried = false → exec .checkSecondJudged s = .next s)

/-- SET_EVIDENCE_PARAMS: RANGE if the period, a filter code or a limit is out of range; else the settings
are replaced, a new period moves the next boundary to its first one after now, an input whose enable changes
is no longer watched, and one that becomes disabled drops its pulse (R135). A carry of the period that is still
to be judged is judged first, so that an input enabled here is not judged for the second that it began (R134);
that one disabled here is judged for the second before is log entry 41. QUERY_STATUS writes the 416
bytes of the snapshot, now, the UTC offset, DU's state and class, the sequence counter, the pending fill,
the lines and the 64 phases in their places, and changes no state outside its slot (R136, 10.4). Now, DU and
TB are read after an action instant of the period, and one that SET_EVIDENCE_PARAMS precedes follows it (R2,
R36, R135; log entry 5). That RANGE writes the status alone is the model's choice (log entry 20), and so is the
1 that an enable is written back as (log entry 39). -/
def Obligations.EvidenceAndStatus : Prop :=
  (∀ (s : State) (off : Nat) (h : SlotHead) (period : Byte) (p0 p1 : CheckParams), s.requestAt 0x0D off h →
     let good (p : CheckParams) : Prop := p.filter.toNat ≤ 3 ∧ 1 ≤ p.limit.toNat ∧ p.limit.toNat ≤ 1000000
     let fits : Prop := 1 ≤ period.toNat ∧ period.toNat ≤ 60 ∧ good p0 ∧ good p1
     let run := exec (.setEvidenceParams period p0 p1) s
     let set (k : Check) (p : CheckParams) (f : CheckFilter) : Check :=
       { k with
         enabled := p.enable != 0#8, filter := f, limit := p.limit.toNat
         watched := if (p.enable != 0#8) = k.enabled then k.watched else false
         pulse := if p.enable = 0#8 then none else k.pulse }
     let first := (s.tb.sec / period.toNat + 1) * period.toNat
     let next := if period.toNat = s.att.period then s.att.nextBoundary
       else if first < 281474976710656 then first else 0
     (¬ fits → run = .next (s.slotAnswered off h 24 [] .range))
       ∧ ∀ f0 f1 : CheckFilter, fits → f0.code = p0.filter.toNat → f1.code = p1.filter.toNat →
         ∃ j : State, exec .checkSecondJudged s = .next j
           ∧ (let v := ({ j with att := { j.att with
                  period := period.toNat, nextBoundary := next
                  chk0 := set j.att.chk0 p0 f0, chk1 := set j.att.chk1 p1 f1 } } : State).acted
              run = .next (v.slotAnswered off h 24 (s.att.settingBytes ++ leBytes 8 v.att.nextBoundary) .ok)
                ∧ (s.actionDue = false → v.att.nextBoundary = next)))
    ∧ (∀ (s : State) (off : Nat) (h : SlotHead), s.requestAt 0x0E off h →
         let v := s.acted
         ∃ bytes : List Byte, exec .queryStatus s = .next (v.slotAnswered off h 0 bytes .ok)
           ∧ bytes.length = 416
           ∧ bytes.take 15 = time12 v.now ++ leSigned 2 v.tb.utcOffset
               ++ [if v.tb.demand.isSome then 1 else 0]
           ∧ (bytes.drop 24).take 2 = [BitVec.ofNat 8 v.du.state.code, BitVec.ofNat 8 v.du.cls.code]
           ∧ (bytes.drop 64).take 8 = leBytes 8 v.sqm.next
           ∧ (bytes.drop 80).take 2 = leBytes 2 v.pst.records.length
           ∧ (∀ l : Fin 4, (bytes.drop (88 + 4 * l.val)).take 4 =
               [if (v.line l).up then 1 else 0, if (v.line l).opened then 1 else 0,
                if (v.line l).hold then 1 else 0, BitVec.ofNat 8 (v.line l).fifo.length])
           ∧ (∀ g : Fin 64, bytes[104 + g.val]? = some (BitVec.ofNat 8 (v.group g).phase.code)))

/-! ## The line requests and the capture settings (R66 to R68, R172) -/

/-- OPEN_LINE, CLOSE_LINE and SET_LINE_PARAMS: RANGE for an index above 3; else the admission or the urgent
kinds are replaced at take, and the result area receives what the rule names (R66 to R68).
SET_CAPTURE_PARAMS: RANGE if a setting is out of range, the low mark is not below the high mark or the push
set has bit 0, 14 or 15; else the settings are replaced, every line evaluates its flow state, and
PENDING_HIGH (bit 10) is set if the high mark passes down through the fill (R162, R172). That RANGE writes the
status alone is the model's choice (log entry 20), and so is the 1 that notify-all is written back as (log
entry 39). -/
def Obligations.LineAndCaptureSettings : Prop :=
  (∀ (s : State) (off : Nat) (h : SlotHead) (index a b : Byte),
     (3 < index.toNat →
         (s.requestAt 0x04 off h → exec (.openLine index) s = .next (s.slotAnswered off h 8 [] .range))
           ∧ (s.requestAt 0x05 off h → exec (.closeLine index) s = .next (s.slotAnswered off h 8 [] .range))
           ∧ (s.requestAt 0x06 off h →
               exec (.setLineParams index a b) s = .next (s.slotAnswered off h 8 [] .range)))
       ∧ ∀ l : Fin 4, l.val = index.toNat →
         let x := s.line l
         let before : List Byte := [if x.opened then 1 else 0, if x.up then 1 else 0,
           BitVec.ofNat 8 x.fifo.length, 0, 0, 0, 0, 0]
         (s.requestAt 0x04 off h → exec (.openLine index) s
             = .next ((s.setLine l { x with opened := true }).slotAnswered off h 8 before .ok))
           ∧ (s.requestAt 0x05 off h → exec (.closeLine index) s
             = .next ((s.setLine l { x with opened := false }).slotAnswered off h 8 before .ok))
           ∧ (s.requestAt 0x06 off h → exec (.setLineParams index a b) s
             = .next ((s.setLine l { x with urgentA := a.toNat, urgentB := b.toNat }).slotAnswered off h 8
                 [BitVec.ofNat 8 x.urgentA, BitVec.ofNat 8 x.urgentB, 0, 0, 0, 0, 0, 0] .ok)))
    ∧ (∀ (s : State) (off : Nat) (h : SlotHead) (flush : BitVec 32) (high low push : BitVec 16) (all : Byte),
         s.requestAt 0x0F off h →
         let fits : Prop := 1000 ≤ flush.toNat ∧ flush.toNat ≤ 10000000 ∧ 1 ≤ high.toNat
           ∧ high.toNat ≤ 1000 ∧ low.toNat < high.toNat
           ∧ push.getLsbD 0 = false ∧ push.getLsbD 14 = false ∧ push.getLsbD 15 = false
         let fill := s.pst.records.length
         let old := s.pst.params
         let run := exec (.setCaptureParams flush high low push all) s
         (¬ fits → run = .next (s.slotAnswered off h 16 [] .range))
           ∧ (fits → ∃ t : State, run = .next (t.slotAnswered off h 16
                 (leBytes 4 old.flush ++ leBytes 2 old.high ++ leBytes 2 old.low ++ leBytes 2 old.push.toNat
                   ++ [if old.notifyAll then 1 else 0, 0, 0, 0, 0, 0] ++ leBytes 2 fill ++ pad 6) .ok)
               ∧ t.pst = { s.pst with params :=
                   { flush := flush.toNat, high := high.toNat, low := low.toNat, push := push,
                     notifyAll := all != 0#8 } }
               ∧ (∀ l : Fin 4, t.line l = (s.line l).evalFlow fill high.toNat low.toNat)
               ∧ (fill < old.high → high.toNat ≤ fill → t.prt.notice.getLsbD 10 = true)
               ∧ (¬ (fill < old.high ∧ high.toNat ≤ fill) → t.prt = s.prt)
               ∧ t = { s with pst := t.pst, lines := t.lines, prt := t.prt, ep := t.ep, wire := t.wire }))

/-! ## The request chains (chapter 7) -/

/-- START: in INACTIVE or FAULT the chain becomes ACTIVE and enters the block at its start address, or FAULT
with cause ALIGN if that is 0 or no multiple of 64; otherwise it is ignored (R141, R165). RESUME: a parked
chain re-reads its parked point, an ACTIVE one remembers it, else it is ignored (R142). Every command ignored
sets IGNORED (R140), as every one does while a CHAINS scope is in progress (R179). The commands reach a part
whose endpoint has been configured (R188; log entry 6). -/
def Obligations.StartAndResume : Prop :=
  ∀ (s : State) (c : Chain), s.served → s.carries →
    let x := s.ctx c
    let ignored := s.setCtx c { x with ignored := true }
    (s.prt.chains ≠ .idle → exec (.start c) s = .next ignored ∧ exec (.resume c) s = .next ignored
        ∧ exec (.stop c) s = .next ignored)
      ∧ (s.prt.chains = .idle →
        (x.state = .inactive ∨ x.state = .fault →
            (x.start.toNat % 64 = 0 → x.start ≠ 0#64 →
              exec (.start c) s = .next (s.setCtx c { x with
                state := .active, park := none, remembered := false, fault := none, ignored := false,
                current := x.start, walk := .header }))
            ∧ (x.start.toNat % 64 ≠ 0 ∨ x.start = 0#64 →
              exec (.start c) s = .next ((s.setCtx c { x with
                state := .fault, park := none, remembered := false, fault := some .align,
                ignored := false, current := x.start, walk := .none }).notify .chainFault))
            ∧ exec (.resume c) s = .next ignored)
        ∧ (x.state = .parked → exec (.start c) s = .next ignored
            ∧ exec (.resume c) s = .next (s.setCtx c { x with
                state := .active, park := none, ignored := false
                walk := if x.park = some .atEnd then .next else .header }))
        ∧ (x.state = .active → exec (.start c) s = .next ignored
            ∧ exec (.resume c) s = .next (s.setCtx c { x with remembered := true, ignored := false }))
        ∧ (x.state = .stopping → exec (.start c) s = .next ignored
            ∧ exec (.resume c) s = .next ignored))

/-- STOP on the request chains: a parked or faulted control chain becomes INACTIVE; an ACTIVE one finishes a
block with unwalked slots PARTIAL with close cause STOP, and one that is taking a slot waits for its answer
first (R143). That the chain is INACTIVE at once, with that write still in flight, is log entry 23; writes of
the request chains already in flight are left out. The event chain with entries outstanding
becomes STOPPING; with none, the current block is finished PARTIAL and the chain INACTIVE; in FAULT it
becomes INACTIVE; in INACTIVE and STOPPING STOP is ignored (R144). STOP on the capture chain: an open block
holding records closes with cause STOP and the chain is STOPPING; during a close write it becomes STOPPING;
with an empty open block, between blocks, PARKED or in FAULT it becomes INACTIVE at once; in INACTIVE or
STOPPING it is ignored (R165, R169). The commands reach a part whose endpoint has been configured (R188; log
entry 6). -/
def Obligations.StopChain : Prop :=
  (∀ s : State, s.served → s.carries → s.prt.chains = .idle →
     let x := s.ctl.ctx
     let y := s.evt.ctx
     let halt (z : ChainCtx) : ChainCtx :=
       { z with state := .inactive, park := none, remembered := false, fault := none, ignored := false,
                walk := .none }
     (x.state = .parked ∨ x.state = .fault → exec (.stop .control) s = .next (s.setCtx .control (halt x)))
       ∧ (∀ n, x.state = .active → x.walk = .slotHead n → s.posted = [] →
           exec (.stop .control) s = .next { s with
             ctl := { s.ctl with ctx := halt x }
             posted := [blockWrite .control x.current 10 [0#8, 4#8],
               blockWrite .control x.current 20 (leBytes 4 s.ctl.block.count ++ leBytes 8 0 ++ leBytes 8 0),
               { blockWrite .control x.current 8 [4#8] with
                 ends := .final s.ctl.block.notify false }] })
       ∧ (x.state = .active → x.walk = .header ∨ x.walk = .next → s.posted = [] →
           exec (.stop .control) s = .next (s.setCtx .control (halt x)))
       ∧ (∀ n hd, x.state = .active → x.walk = .slot n hd ∨ x.walk = .lastSlot n hd →
           exec (.stop .control) s = .next (s.setCtx .control
             { x with walk := .lastSlot n hd, ignored := false }))
       ∧ (x.state = .inactive → exec (.stop .control) s
           = .next (s.setCtx .control { x with ignored := true }))
       ∧ (y.state = .active ∨ y.state = .parked → 0 < s.outstanding → s.posted = [] →
           exec (.stop .event) s = .next (s.setCtx .event
             { y with state := .stopping, park := none, remembered := false, ignored := false,
                      walk := .none }))
       ∧ (y.state = .active ∨ y.state = .parked → s.evt.blocks = [] → s.posted = [] →
           exec (.stop .event) s = .next (s.setCtx .event
             { y with state := .inactive, park := none, remembered := false, ignored := false,
                      walk := .none }))
       ∧ (∀ b : EvtBlock, y.state = .active → s.evt.blocks = [b] → b.left = false → b.outstanding = 0 →
           b.low = none → b.high = none → b.bad = false → s.posted = [] →
           exec (.stop .event) s = .next { s with
             evt := { s.evt with blocks := [], ctx :=
               { y with state := .inactive, park := none, remembered := false, ignored := false,
                        walk := .none } }
             posted := [blockWrite .event b.addr 10 [0#8, 4#8],
               blockWrite .event b.addr 20 (leBytes 4 b.count ++ leBytes 8 0 ++ leBytes 8 0),
               { blockWrite .event b.addr 8 [4#8] with ends := .final b.notify false }] })
       ∧ (y.state = .fault → exec (.stop .event) s = .next (s.setCtx .event (halt y)))
       ∧ (y.state = .inactive ∨ y.state = .stopping → exec (.stop .event) s
           = .next (s.setCtx .event { y with ignored := true })))
    ∧ (∀ s : State, s.served → s.carries → s.prt.chains = .idle →
         let x := s.cap.ctx
         let halted : ChainCtx := { x with
           state := .inactive, park := none, remembered := false, fault := none, ignored := false, walk := .none }
         let stopping : ChainCtx := { x with
           state := .stopping, park := none, remembered := false, ignored := false, walk := .none }
         let run := exec (.stop .capture) s
         (∀ b, x.state = .active → s.pst.block = some b → 0 < b.count → run = .next { s with
             posted := s.posted ++
               [blockWrite .capture b.addr 10 [0#8, 4#8],
                blockWrite .capture b.addr 16
                  (leBytes 4 b.used ++ leBytes 4 b.count ++ leBytes 8 b.first ++ leBytes 8 b.last),
                { blockWrite .capture b.addr 8 [3#8] with ends := .captureDone }]
             pst := { s.pst with block := none, flushAt := none }
             cap := { ctx := stopping, closing := some { notify := b.notify } } })
           ∧ (∀ b, x.state = .active → s.pst.block = some b → b.count = 0 → run = .next { s with
               cap := { s.cap with ctx := halted }, pst := { s.pst with block := none } })
           ∧ (x.state = .active → s.pst.block = none → s.cap.closing ≠ none →
               run = .next { s with cap := { s.cap with ctx := stopping } })
           ∧ (x.state = .active → s.pst.block = none → s.cap.closing = none →
               run = .next { s with cap := { s.cap with ctx := halted } })
           ∧ (x.state = .parked ∨ x.state = .fault → run = .next { s with cap := { s.cap with ctx := halted } })
           ∧ (x.state = .inactive ∨ x.state = .stopping →
               run = .next { s with cap := { s.cap with ctx := { x with ignored := true } } }))

/-- BLOCK_HEADER_READ on a request chain: a block that is not LOADED parks the chain ON_BLOCK, unless a
RESUME is remembered; a good LOADED block is written TAKEN and walked from its first slot; a bad one is
written BAD_BLOCK with its counts 0, then DONE (R138, R142, R146, R157). An empty block is finished DONE at
once; the event walk leaves it at once too (R138, R157). BLOCK_HEADER_READ on the capture chain: not LOADED
parks it ON_BLOCK; a good capacity opens the block, with nothing written; a bad one is written BAD_BLOCK and
DONE (R163, R164). -/
def Obligations.BlockEntered : Prop :=
  (∀ (s : State) (c : Chain) (hd : BlockHeader), s.waitsFor c .header → c ≠ .capture →
     let x := s.ctx c
     let good : Prop := 512 ≤ hd.capacity.toNat ∧ hd.capacity.toNat ≤ 65536 ∧ hd.capacity.toNat % 8 = 0
       ∧ hd.used.toNat ≤ hd.capacity.toNat ∧ hd.used.toNat % 8 = 0
     let taken := s.posted ++ [blockWrite c x.current 8 [2#8]]
     let run := exec (.blockHeaderRead c hd) s
     (hd.state ≠ 1#8 → x.remembered = false → run = .next ((s.setCtx c
         { x with state := .parked, park := some .onBlock, walk := .none }).notify .chainParked))
       ∧ (hd.state ≠ 1#8 → x.remembered = true →
           run = .next (s.setCtx c { x with remembered := false, walk := .header }))
       ∧ (hd.state = 1#8 → good → 0 < hd.used.toNat → c = .control →
           run = .next { s with
             posted := taken
             ctl := { ctx := { x with walk := .slotHead 0 }
                      block := { used := hd.used.toNat, notify := hd.flags.getLsbD 0, count := 0 } } })
       ∧ (hd.state = 1#8 → good → hd.used.toNat = 0 → c = .control →
           run = .next { s with
             posted := taken ++
               [blockWrite c x.current 10 [0#8, 0#8],
                blockWrite c x.current 20 (leBytes 4 0 ++ leBytes 8 0 ++ leBytes 8 0),
                { blockWrite c x.current 8 [3#8] with ends := .final (hd.flags.getLsbD 0) true }]
             ctl := { ctx := { x with walk := .finishing none }
                      block := { used := 0, notify := hd.flags.getLsbD 0, count := 0 } } })
       ∧ (hd.state = 1#8 → good → 0 < hd.used.toNat → c = .event →
           run = .next { s with
             posted := taken
             evt := { s.evt with
               ctx := { x with walk := .slotHead 0 }
               blocks := s.evt.blocks ++
                 [{ addr := x.current, notify := hd.flags.getLsbD 0, used := hd.used.toNat,
                    outstanding := 0, left := false, count := 0, low := none, high := none, bad := false,
                    unfinished := false }] } })
       ∧ (hd.state = 1#8 → good → hd.used.toNat = 0 → c = .event →
           (∀ b ∈ s.evt.blocks, b.left = false ∨ 0 < b.outstanding) →
           run = .next { s with
             posted := taken ++ finalWrites c x.current 0#8 0#8 3#8 0 0 0 (hd.flags.getLsbD 0) false
             evt := { s.evt with ctx := { x with walk := .next } } })
       ∧ (hd.state = 1#8 → ¬ good →
           run = .next { s.setCtx c { x with walk := .finishing (some hd.next) } with
             posted := s.posted ++
               [blockWrite c x.current 10 [1#8, 0#8],
                blockWrite c x.current 20 (leBytes 4 0 ++ leBytes 8 0 ++ leBytes 8 0),
                { blockWrite c x.current 8 [3#8] with ends := .final (hd.flags.getLsbD 0) true }] }))
    ∧ (∀ (s : State) (hd : BlockHeader), s.waitsFor .capture .header →
         let x := s.cap.ctx
         let good : Prop := 512 ≤ hd.capacity.toNat ∧ hd.capacity.toNat ≤ 65536 ∧ hd.capacity.toNat % 8 = 0
         let run := exec (.blockHeaderRead .capture hd) s
         (hd.state ≠ 1#8 → x.remembered = false → run = .next ((s.setCtx .capture
             { x with state := .parked, park := some .onBlock, walk := .none }).notify .chainParked))
           ∧ (hd.state = 1#8 → good → run = .next { s with
               cap := { s.cap with ctx := { x with walk := .none } }
               pst := { s.pst with
                 block := some
                   { addr := x.current, capacity := hd.capacity.toNat, notify := hd.flags.getLsbD 0, used := 0,
                     count := 0, first := 0, last := 0 } } })
           ∧ (hd.state = 1#8 → ¬ good → run = .next { s with
               cap := { ctx := { x with walk := .none }, closing := some { notify := hd.flags.getLsbD 0 } }
               posted := s.posted ++
                 [blockWrite .capture x.current 10 [1#8, 0#8],
                  blockWrite .capture x.current 16 (leBytes 4 0 ++ leBytes 4 0 ++ leBytes 8 0 ++ leBytes 8 0),
                  { blockWrite .capture x.current 8 [3#8] with ends := .captureDone }] }))

/-- NEXT_ADDRESS_READ on any chain: 0 parks it AT_END, unless a RESUME is remembered; an address that is no
multiple of 64 enters FAULT with cause ALIGN, the current block address being that value; else the walk
enters the block there (R142, R145 to R147, R164). SLOT_HEAD_READ: a malformed slot gets MALFORMED, if its
head lies within the used value, and ends its block BAD_BLOCK, on the event chain once nothing of it is
outstanding (R149, R157); a slot whose status is not NEW is skipped, the last one with its block finished or
left (R139, R145, R148); a NEW slot of an undefined kind gets KIND, one too short RANGE, on the event chain
once it may be taken (R150, R153); any other NEW slot waits to be taken. -/
def Obligations.Walk : Prop :=
  (∀ (s : State) (c : Chain) (a : BitVec 64), s.waitsFor c .next →
     let x := s.ctx c
     let run := exec (.nextAddressRead c a) s
     (a = 0#64 → x.remembered = false → run = .next ((s.setCtx c
         { x with state := .parked, park := some .atEnd, walk := .none }).notify .chainParked))
       ∧ (a = 0#64 → x.remembered = true →
           run = .next (s.setCtx c { x with remembered := false, walk := .next }))
       ∧ (a.toNat % 64 ≠ 0 → run = .next ((s.setCtx c
           { x with state := .fault, fault := some .align, remembered := false, park := none,
                    current := a, walk := .none }).notify .chainFault))
       ∧ (a ≠ 0#64 → a.toNat % 64 = 0 →
           run = .next (s.setCtx c { x with current := a, walk := .header })))
    ∧ (∀ (s : State) (c : Chain) (off : Nat) (h : SlotHead), s.waitsFor c (.slotHead off) → c ≠ .capture →
         let x := s.ctx c
         let n := h.length.toNat
         let used := if c = .control then s.ctl.block.used else s.eventUsed
         let malformed : Prop := n < 16 ∨ n % 8 ≠ 0 ∨ used < off + n
         let run := exec (.slotHeadRead c h) s
         (malformed → c = .control →
             run = .next { s with
               posted := s.posted ++ (if off + 16 ≤ used then
                   [blockWrite c x.current (64 + off + 4) [8#8]] else []) ++
                 [blockWrite c x.current 10 [1#8, 0#8],
                  blockWrite c x.current 20 (leBytes 4 (s.ctl.block.count + 1) ++ leBytes 8 0 ++ leBytes 8 0),
                  { blockWrite c x.current 8 [3#8] with ends := .final s.ctl.block.notify true }]
               ctl := { ctx := { x with walk := .finishing none }
                        block := { s.ctl.block with count := s.ctl.block.count + 1 } } })
           ∧ (∀ b : EvtBlock, malformed → c = .event → s.evt.blocks = [b] → b.left = false →
               b.unfinished = false →
               run = .next (s.eventLeft { b with count := b.count + 1, bad := true }
                 (if off + 16 ≤ used then [blockWrite c x.current (64 + off + 4) [8#8]] else [])))
           ∧ (¬ malformed → h.status ≠ 0#8 → off + n < used →
               run = .next (s.setCtx c { x with walk := .slotHead (off + n) }))
           ∧ (¬ malformed → h.status ≠ 0#8 → used ≤ off + n → c = .control →
               run = .next { s with
                 posted := s.posted ++ finalWrites c x.current 0#8 0#8 3#8 s.ctl.block.count 0 0
                   s.ctl.block.notify true
                 ctl := { s.ctl with ctx := { x with walk := .finishing none } } })
           ∧ (∀ b : EvtBlock, ¬ malformed → h.status ≠ 0#8 → used ≤ off + n → c = .event →
               s.evt.blocks = [b] → b.left = false → b.unfinished = false → run = .next (s.eventLeft b []))
           ∧ (¬ malformed → h.status = 0#8 → c = .control →
               (slotRefusal .control h = none → run = .next (s.setCtx c { x with walk := .slot off h }))
               ∧ ∀ st, slotRefusal .control h = some st → run = .next (s.slotAnswered off h 0 [] st))
           ∧ (¬ malformed → h.status = 0#8 → c = .event →
               slotRefusal .event h = none ∨ 16 ≤ s.evt.fifo.length ∨ 16 ≤ s.outstanding
                 ∨ s.pst.params.high ≤ s.pst.records.length →
               run = .next (s.setCtx c { x with walk := .slot off h }))
           ∧ (∀ (b : EvtBlock) (st : SlotStatus), ¬ malformed → h.status = 0#8 → c = .event →
               slotRefusal .event h = some st → s.evt.fifo.length < 16 → b.outstanding < 16 →
               s.pst.records.length < s.pst.params.high → s.evt.blocks = [b] → b.left = false →
               b.unfinished = false →
               let answer := [blockWrite c x.current (64 + off + 4) [BitVec.ofNat 8 st.code]]
               (off + n < used → run = .next { s with
                   posted := s.posted ++ answer
                   evt := { s.evt with ctx := { x with walk := .slotHead (off + n) }
                                       blocks := [{ b with count := b.count + 1 }] } })
                 ∧ (used ≤ off + n → run = .next (s.eventLeft { b with count := b.count + 1 } answer)))
           ∧ (slotRefusal c h = none ↔ ∃ least, minLength c h.kind.toNat = some least ∧ least ≤ n)
           ∧ (slotRefusal c h = some .kind ↔ minLength c h.kind.toNat = none))

/-- STAMP, EXTEND and ABANDON taken: a slot whose fields pass is stamped now with the class in force, after
the work of the period (R2, R36; log entry 5), joins the engine FIFO with its write-back mark set, and is
written TAKEN; one whose fields fail gets RANGE and joins nothing (R154). The walk goes to the next slot of
the block; after the last one it leaves the block, which is finished DONE if nothing of it is outstanding, and
reads the next address (R145, R157). Earlier blocks in flight stay as they are. -/
def Obligations.EventTakes : Prop :=
  ∀ (s : State) (off : Nat) (h : SlotHead) (group : Byte) (len : BitVec 16) (payload : List Byte)
    (bs : List EvtBlock) (b : EvtBlock), s.evt.blocks = bs ++ [b] →
    (b.used ≤ off + h.length.toNat → b.unfinished = false ∧ ∀ x ∈ bs, 0 < x.outstanding) →
    let groupOk : Prop := group.toNat < 64 ∨ group.toNat = 255
    let lengthOk : Prop := len.toNat ≤ 240 ∧ 56 + (len.toNat + 7) / 8 * 8 ≤ h.length.toNat
    let block := s.evt.ctx.current
    let v := s.left
    let taken (kind : EngineKind) (data : List Byte) : State :=
      ({ v with
          posted := s.posted
          evt := { s.evt with fifo := s.evt.fifo ++
            [{ stamp := v.now, cls := v.du.cls, kind := kind, group := group.toNat, tag := h.tag,
               payload := data, block := block, offset := off, writeBack := true }] } } : State).eventWalked
        off h.length.toNat { b with outstanding := b.outstanding + 1 }
        [blockWrite .event block (64 + off + 4) [1#8]]
    let refused : State := s.eventWalked off h.length.toNat { b with count := b.count + 1 }
      [blockWrite .event block (64 + off + 4) [4#8]]
    (s.eventAt 0x81 off h → groupOk ∧ lengthOk →
        exec (.stamp group len payload) s = .next (taken .stamp payload))
      ∧ (s.eventAt 0x81 off h → ¬ (groupOk ∧ lengthOk) →
        exec (.stamp group len payload) s = .next refused)
      ∧ (s.eventAt 0x82 off h → groupOk → exec (.extend group) s = .next (taken .extend []))
      ∧ (s.eventAt 0x82 off h → ¬ groupOk → exec (.extend group) s = .next refused)
      ∧ (s.eventAt 0x83 off h → groupOk → exec (.abandon group) s = .next (taken .abandon []))
      ∧ (s.eventAt 0x83 off h → ¬ groupOk → exec (.abandon group) s = .next refused)

/-- Host writes whose completion ends nothing go out in the order of their issue before any command acts
that does not name a write that fails (R182; log entry 8). WRITE_BACK_COMPLETE: the write-back's status is
sent; its entry is no longer outstanding, and the block's count and sequence fields take it in (R156, R182);
a block the walk has left with nothing outstanding is finished DONE (R157); the last one finishes a STOP
(R144). That the chain is INACTIVE at once, with the PARTIAL write still in flight, is the model's choice (log
entry 23). BLOCK_STATE_WRITE_COMPLETE: the final write is sent; CTL_DONE (bit 0) or EVT_DONE (bit 1) is set if
NOTIFY was; a good control block is left by a fresh read of its next address, a bad block by the address of
its header read (R139, R145). -/
def Obligations.WritesComplete : Prop :=
  (∀ (c : Instr) (s : State) (pre rest : List HostWrite), s.calm → s.carries → s.posted = pre ++ rest →
     (∀ w ∈ pre, w.ends = .plain) → (∀ w ∈ rest.head?, w.ends ≠ .plain) →
     let sent : State := { s with
       posted := rest, wire := (pre.map fun w => Output.hostWrite w.addr w.bytes).reverse ++ s.wire }
     match c with
     | .powerOn | .conventionalReset | .supplyOutOfRange _ | .oscillatorStop | .oscillatorReturn
     | .callOpenTimer _ | .closeWindowTimer _ | .closeTimer _ | .alarmTimer _ | .dmaWriteFailed _
     | .registerWriteIgnored _ | .chainsResetEffect | .full => True
     | .start _ | .resume _ | .stop _ | .chainCommandUndefined _ | .chainAddrWrite _ _ _ | .noticeClear _
     | .noticeEnableWrite _ | .lines | .auctions | .chains => s.ep.configured = true → exec c s = exec c sent
     | _ => exec c s = exec c sent)
    ∧
  (∀ (s : State) (w : HostWrite) (wb : WriteBack) (rest : List WriteBack) (b : EvtBlock),
     s.ready → s.carries → s.prt.chains ≠ .waitDone → s.posted = [w] → w.ends = .writeBack →
     s.evt.writeBacks = wb :: rest → s.evt.blocks = [b] → b.addr = wb.block → 0 < b.outstanding →
     b.bad = false → b.unfinished = false →
     let low := match b.low with | some n => min n wb.seq | none => wb.seq
     let high := match b.high with | some n => max n wb.seq | none => wb.seq
     let after : EvtBlock := { b with
       outstanding := b.outstanding - 1, count := b.count + 1, low := some low, high := some high }
     let finish (cause state : Byte) : List HostWrite :=
       [blockWrite .event b.addr 10 [0#8, cause],
        blockWrite .event b.addr 20 (leBytes 4 (b.count + 1) ++ leBytes 8 low ++ leBytes 8 high),
        { blockWrite .event b.addr 8 [state] with ends := .final b.notify false }]
     let sent := Output.hostWrite w.addr w.bytes :: s.wire
     (b.left = false ∨ 1 < b.outstanding → s.evt.ctx.state ≠ .stopping →
         exec .writeBackComplete s = .next { s with
           posted := [], wire := sent, evt := { s.evt with writeBacks := rest, blocks := [after] } })
       ∧ (b.left = true → b.outstanding = 1 → s.evt.ctx.state ≠ .stopping →
         exec .writeBackComplete s = .next { s with
           posted := finish 0#8 3#8, wire := sent
           evt := { s.evt with writeBacks := rest, blocks := [] } })
       ∧ (b.left = false → b.outstanding = 1 → s.evt.ctx.state = .stopping →
         exec .writeBackComplete s = .next { s with
           posted := finish 4#8 4#8, wire := sent
           evt := { s.evt with
             writeBacks := rest, blocks := []
             ctx := { s.evt.ctx with state := .inactive, walk := .none } } }))
    ∧ (∀ (s : State) (c : Chain) (w : HostWrite) (notify leave : Bool), c ≠ .capture → s.ready → s.carries →
         s.prt.chains ≠ .waitDone → s.posted = [w] → w.chain = c → w.ends = .final notify leave →
         let x := s.ctx c
         let sent : State :=
           ({ s with posted := [], wire := Output.hostWrite w.addr w.bytes :: s.wire } : State).notifyIf notify
             (if c = .control then .ctlDone else .evtDone)
         let run := exec (.blockStateWriteComplete c) s
         (leave = false ∨ x.state ≠ .active → run = .next sent)
           ∧ (leave = true → x.state = .active → x.walk = .finishing none →
               run = .next (sent.setCtx c { x with walk := .next }))
           ∧ ∀ a : BitVec 64, leave = true → x.state = .active → x.walk = .finishing (some a) → a ≠ 0#64 →
               a.toNat % 64 = 0 → run = .next (sent.setCtx c { x with current := a, walk := .header }))

/-- DMA_READ_FAILED and DMA_READ_TIMEOUT: the chain that waits for a read enters FAULT with cause
READ_ERROR, CHAIN_FAULT is set, and nothing else changes where no event slot was being read; a TAKEN event
block whose slot read failed counts as left, and leaves the list unwritten once nothing of it is outstanding
(R147, R164, R182). DMA_WRITE_FAILED: the writes before the one that cannot be sent go out; its chain enters
FAULT with cause WRITE_ERROR, the current block address naming the block, and CHAIN_FAULT is set. The event
chain's entries lose their write-back and its blocks leave the list (R147); on the capture chain every
record stays in PST, unplaced, and the open block and the flush timer are gone (R170). A DONE write that
fails while a CHAINS scope waits for it sets no fault (R173). That the chain's writes behind the failed one
are abandoned, but those of TAKEN, is log entry 8; that a control chain already INACTIVE enters FAULT too is
log entry 23. -/
def Obligations.AccessFailed : Prop :=
  (∀ (s : State) (c : Chain), s.ready → s.carries → (s.ctx c).state = .active →
     (s.ctx c).walk = .header ∨ (s.ctx c).walk = .next
       ∨ (c ≠ .event ∧ ((∃ off, (s.ctx c).walk = .slotHead off)
           ∨ ∃ off h, (s.ctx c).walk = .slot off h ∨ (s.ctx c).walk = .lastSlot off h)) →
     let t := (s.setCtx c { s.ctx c with
       state := .fault, fault := some .readError, remembered := false, park := none,
       walk := .none }).notify .chainFault
     exec (.dmaReadFailed c) s = .next t ∧ exec (.dmaReadTimeout c) s = .next t)
    ∧ (∀ (s : State) (b : EvtBlock), s.ready → s.carries → s.evt.ctx.state = .active →
         (∃ off, s.evt.ctx.walk = .slotHead off) ∨ (∃ off h, s.evt.ctx.walk = .slot off h) →
         s.evt.blocks = [b] →
         let t := ({ s with evt := { s.evt with
           ctx := { s.evt.ctx with
             state := .fault, fault := some .readError, remembered := false, park := none, walk := .none }
           blocks := if b.outstanding = 0 then [] else [{ b with left := true, unfinished := true }] } }
           : State).notify .chainFault
         exec (.dmaReadFailed .event) s = .next t ∧ exec (.dmaReadTimeout .event) s = .next t)
    ∧ (∀ (s : State) (c : Chain) (pre rest : List HostWrite) (w : HostWrite), s.calm → s.carries →
         s.posted = pre ++ w :: rest → (∀ v ∈ pre, v.ends = .plain) → w.chain = c →
         let kept := rest.filter fun v => v.chain != c || v.marksTaken
         let sent := (pre.map fun v => Output.hostWrite v.addr v.bytes).reverse ++ s.wire
         let faulted (x : ChainCtx) : ChainCtx :=
           { x with state := .fault, fault := some .writeError, remembered := false, park := none,
                    current := w.block, walk := .none }
         let run := exec (.dmaWriteFailed { chain := c, sent := pre.length }) s
         (s.prt.chains = .waitDone → c = .capture → w.ends = .captureDone → run = .next { s with
             posted := kept, wire := sent
             pst := { s.pst with placed := 0, block := none, flushAt := none }
             cap := { s.cap with closing := none } })
         ∧ (s.prt.chains ≠ .waitDone → run = .next ((match c with
           | .control => { s with
               posted := kept, wire := sent, ctl := { s.ctl with ctx := faulted s.ctl.ctx } }
           | .event => { s with
               posted := kept, wire := sent
               evt := { ctx := faulted s.evt.ctx
                        fifo := s.evt.fifo.map fun e => { e with writeBack := false }
                        blocks := [], writeBacks := [] } }
           | .capture => { s with
               posted := kept, wire := sent
               pst := { s.pst with placed := 0, block := none, flushAt := none }
               cap := { ctx := faulted s.cap.ctx, closing := none } } : State).notify .chainFault)))

/-! ## The capture chain (chapter 8) -/

/-- RECORD_PLACE: the oldest unplaced record is written at the open block's used offset if it fits, after
TAKEN and the arming of the flush timer for the block's first; a record of a push kind then closes the block
PUSH; one that does not fit closes it FULL and is not placed (R166 to R168). FLUSH_TIMER_EXPIRY: an open
block that holds a record closes with cause FLUSH (R167, R168). CAPTURE_DONE_COMPLETE: the placed records
leave PST from its head, CAP_DONE (bit 2) is set if asked for, and the walk reads the next address, or a
stopping chain becomes INACTIVE (R161, R168, R169). -/
def Obligations.CapturePacking : Prop :=
  (∀ (s : State) (b : OpenBlock) (r : Record), s.ready → s.carries → s.prt.chains ≠ .waitDone →
     s.cap.ctx.state = .active → s.pst.block = some b → s.pst.records[s.pst.placed]? = some r →
     let b' : OpenBlock := { b with
       used := b.used + r.length, count := b.count + 1, last := r.seq
       first := if b.count = 0 then r.seq else b.first }
     let writes := (if b.count = 0 then [blockWrite .capture b.addr 8 [2#8]] else [])
       ++ [blockWrite .capture b.addr (64 + b.used) r.bytes]
     let close (x : OpenBlock) (cause : Byte) : List HostWrite :=
       [blockWrite .capture x.addr 10 [0#8, cause],
        blockWrite .capture x.addr 16
          (leBytes 4 x.used ++ leBytes 4 x.count ++ leBytes 8 x.first ++ leBytes 8 x.last),
        { blockWrite .capture x.addr 8 [3#8] with ends := .captureDone }]
     let closing := { s.cap with closing := some { notify := b.notify } }
     (b.used + r.length ≤ b.capacity → s.pst.params.push.getLsbD r.body.code = false →
         exec .recordPlace s = .next { s with
           posted := s.posted ++ writes
           pst := { s.pst with
             block := some b', placed := s.pst.placed + 1
             flushAt := if b.count = 0 then some (s.clock.own + s.pst.params.flush * 4294967296)
               else s.pst.flushAt } })
       ∧ (b.used + r.length ≤ b.capacity → s.pst.params.push.getLsbD r.body.code = true →
         exec .recordPlace s = .next { s with
           posted := s.posted ++ writes ++ close b' 3#8
           pst := { s.pst with block := none, placed := s.pst.placed + 1, flushAt := none }
           cap := closing })
       ∧ (b.capacity < b.used + r.length →
         exec .recordPlace s = .next { s with
           posted := s.posted ++ close b 1#8
           pst := { s.pst with block := none, flushAt := none }
           cap := closing }))
    ∧ ((∀ (s : State) (b : OpenBlock) (at_ : Nat), s.ready → s.carries → s.prt.chains ≠ .waitDone →
           s.pst.block = some b → s.pst.flushAt = some at_ → 0 < b.count → at_ ≤ s.clock.own →
           exec .flushTimerExpiry s = .next { s with
             posted := s.posted ++
               [blockWrite .capture b.addr 10 [0#8, 2#8],
                blockWrite .capture b.addr 16
                  (leBytes 4 b.used ++ leBytes 4 b.count ++ leBytes 8 b.first ++ leBytes 8 b.last),
                { blockWrite .capture b.addr 8 [3#8] with ends := .captureDone }]
             pst := { s.pst with block := none, flushAt := none }
             cap := { s.cap with closing := some { notify := b.notify } } })
         ∧ ∀ (s : State) (w : HostWrite) (k : CapClose), s.ready → s.carries → s.prt.chains ≠ .waitDone →
           s.posted = [w] → w.ends = .captureDone → s.cap.closing = some k →
           s.cap.ctx.state = .active ∨ s.cap.ctx.state = .stopping →
           ∃ t : State, exec .captureDoneComplete s = .next t
             ∧ t.pst = { s.pst with records := s.pst.records.drop s.pst.placed, placed := 0 }
             ∧ t.posted = []
             ∧ (k.notify = true ∨ s.pst.params.notifyAll = true → t.prt.notice.getLsbD 2 = true)
             ∧ t.cap = { closing := none, ctx :=
                 if s.cap.ctx.state = .stopping then { s.cap.ctx with state := .inactive, walk := .none }
                 else { s.cap.ctx with walk := .next } }
             ∧ t = { s with pst := t.pst, posted := [], cap := t.cap, lines := t.lines, prt := t.prt,
                            ep := t.ep, wire := t.wire })

/-! ## The port and the other scopes (chapter 9) -/

/-- CHAIN_COMMAND_UNDEFINED sets IGNORED (R179). CHAIN_ADDR_WRITE replaces the start address whole or the
half it addresses, in every chain state, moving no walk (R181). REGISTER_WRITE_IGNORED has no effect on
any state (R176). -/
def Obligations.ChainRegisters : Prop :=
  ∀ (s : State) (c : Chain) (v : BitVec 64) (w : RegWrite), s.served →
    let x := s.ctx c
    let addr (a : BitVec 64) : State := s.setCtx c { x with start := a }
    exec (.chainCommandUndefined c) s = .next (s.setCtx c { x with ignored := true })
      ∧ exec (.chainAddrWrite c .whole v) s = .next (addr v)
      ∧ exec (.chainAddrWrite c .low v) s = .next (addr (x.start.extractLsb' 32 32 ++ v.extractLsb' 0 32))
      ∧ exec (.chainAddrWrite c .high v) s = .next (addr (v.extractLsb' 0 32 ++ x.start.extractLsb' 0 32))
      ∧ exec (.registerWriteIgnored w) s = .next s

/-- NOTICE_CLEAR clears the bits written as one (R183); NOTICE_ENABLE_WRITE replaces the enables and sends
one message if it enables set causes; VECTOR_UNMASKED sends a message kept while the vector was masked
(R184). A cause set joins NOTICE, and a message is due when it was clear and is enabled (R184). -/
def Obligations.Notices : Prop :=
  (∀ (s : State) (v : BitVec 32), s.served →
      exec (.noticeClear v) s = .next { s with
        prt := { s.prt with notice := s.prt.notice &&& ~~~ (v.setWidth 15) } })
    ∧ (∀ (s : State) (v : BitVec 32), s.served →
      let new : BitVec 15 := v.setWidth 15
      exec (.noticeEnableWrite v) s = .next { s.message
          (decide (∃ i : Fin 15, s.prt.notice.getLsbD i = true ∧ new.getLsbD i = true
            ∧ s.prt.enable.getLsbD i = false)) with
        prt := { s.prt with enable := new } })
    ∧ (∀ s : State, s.served → s.ep.msi = true → s.ep.busMaster = true →
      exec .vectorUnmasked s = .next { s with
        ep := { s.ep with masked := false, vectorPending := false }
        wire := if s.ep.masked && s.ep.vectorPending then .interrupt :: s.wire else s.wire })
    ∧ ∀ (s : State) (c : Cause),
      (∀ i : Nat, (s.notify c).prt.notice.getLsbD i
          = (s.prt.notice.getLsbD i || decide (i = c.bit)))
        ∧ s.notify c = { s.message (!(s.prt.notice.getLsbD c.bit) && s.prt.enable.getLsbD c.bit) with
            prt := { s.prt with notice := (s.notify c).prt.notice } }
        ∧ s.message true = { s with
            ep := { s.ep with vectorPending := s.ep.vectorPending
              || (s.ep.msi && s.ep.busMaster && s.ep.masked) }
            wire := if s.ep.msi ∧ s.ep.busMaster ∧ ¬ s.ep.masked then .interrupt :: s.wire else s.wire }
        ∧ s.message false = s

/-- A read of PART_ID returns 0x44163D11 in every state (R177, R191). A read of PART_STATE returns the state,
the class, step-held, the pending fill and the epoch in their bits (R178, R191), one of NOTICE and of
NOTICE_ENABLE its bits (R183, R184, R191). A read of CHAIN_COMMAND returns for each chain its state, its park
kind while PARKED and NONE otherwise, its IGNORED bit, and its fault cause in FAULT and NONE otherwise, from
the contexts (R180, R191). The host's reads (R176), of the values in force, an action instant and an alarm of
the period included (R36, R37, R44, R96; log entry 5): 32 bits at an aligned offset, 8 or 16 bits as the
addressed bytes of them, 64 bits of a chain address register; an offset without a register reads 0, past the
window too (the model's choice, log entry 42). Over a link that is down, or before the endpoint has been
configured, a read returns nothing (R188; log entry 6). That a read the window does not accept returns nothing
is log entry 34. -/
def Obligations.RegisterReads : Prop :=
  (∀ s : State, s.readWindow 0x00 = 0x44163D11#32)
    ∧ (∀ s : State, s.readWindow 0x08 = s.prt.notice.setWidth 32 ∧ s.readWindow 0x0C = s.prt.enable.setWidth 32)
    ∧ (∀ s : State, s.ready → s.periodDone → s.inForce = s)
    ∧ (∀ (s t : State) (sec : Second), s.acts sec [] → exec .actionInstant s = .next t → t.periodDone →
         s.inForce = t)
    ∧ (∀ (s : State) (a : Fin 8), s.osc = true → s.owed = false → s.alarmDue a = true →
         s.inForce.prt.notice.getLsbD 11 = true)
    ∧ (∀ v : State, v.pst.records.length ≤ 1024 → v.tb.epoch ≤ 65535 →
         let word := v.readWindow 0x04
         word.extractLsb' 0 3 = BitVec.ofNat 3 v.du.state.code
           ∧ word.extractLsb' 3 1 = (if v.du.cls = .degraded then 1#1 else 0#1)
           ∧ word.getLsbD 4 = v.tb.demand.isSome
           ∧ word.extractLsb' 5 11 = BitVec.ofNat 11 v.pst.records.length
           ∧ word.extractLsb' 16 16 = BitVec.ofNat 16 v.tb.epoch)
    ∧ (∀ s : State, ∀ c : Chain,
         let shift := match c with | .control => 0 | .event => 8 | .capture => 16
         let byte := (s.readWindow 0x10).extractLsb' shift 8
         let x := s.ctx c
         byte.extractLsb' 0 3 = BitVec.ofNat 3 x.state.code
           ∧ byte.extractLsb' 3 2 = (if x.state = .parked then
               (match x.park with | some k => BitVec.ofNat 2 k.code | none => 0#2) else 0#2)
           ∧ byte.getLsbD 5 = x.ignored
           ∧ byte.extractLsb' 6 2 = (if x.state = .fault then
               (match x.fault with | some k => BitVec.ofNat 2 k.code | none => 0#2) else 0#2))
    ∧ (∀ (s : State) (n : Nat), s.powered = true → s.ep.linkUp = true →
         s.ep.configured = true →
         let v := s.inForce
         let word := v.readWindow (4 * n)
         s.hostRead (4 * n) 4 = some (word.setWidth 64)
           ∧ (∀ k : Fin 2, s.hostRead (4 * n + 2 * k.val) 2
               = some ((word.extractLsb' (16 * k.val) 16).setWidth 64))
           ∧ (∀ k : Fin 4, s.hostRead (4 * n + k.val) 1
               = some ((word.extractLsb' (8 * k.val) 8).setWidth 64))
           ∧ (∀ c : Chain, s.hostRead (match c with | .control => 0x20 | .event => 0x28 | .capture => 0x30) 8
               = some (if (v.ctx c).state = .inactive then (v.ctx c).start else (v.ctx c).current))
           ∧ (n = 6 ∨ n = 7 ∨ 14 ≤ n → word = 0#32))
    ∧ ∀ (s : State) (offset width : Nat), s.powered = false ∨ s.ep.linkUp = false ∨ s.ep.configured = false →
      s.hostRead offset width = none

/-- CHAINS with no capture DONE write issued takes effect at the write, and CHAINS_RESET_EFFECT once one
that it waited for is through: the three chains become INACTIVE with their start addresses, the engine FIFO,
the blocks in flight, the write-backs, the accesses and PST are emptied, and a DISCARD record stamped now
accounts for the numbers held, after the work of the period, which finds the chains reset (R2, R11, R36; log
entry 5); the scope is complete at once, with RESET_DONE, if PST held none. The writes
of TAKEN in flight still go out (R158, R173). With a DONE write issued, CHAINS only begins to wait for it
(R158, R173, R174, R186). That a close just begun counts as a DONE write issued is log entry 8; that the
effect waits for the oscillator if it stamps a DISCARD, and else acts without it, is log entry 28. Left out: an
ATU timer that CHAINS_RESET_EFFECT finds reached. -/
def Obligations.ChainsScope : Prop :=
  ∀ s : State,
    let kept : List Output := (((if s.ep.linkUp && s.ep.busMaster then s.posted else []).filter
      HostWrite.marksTaken).map fun w => Output.hostWrite w.addr w.bytes).reverse
    let off (x : ChainCtx) : ChainCtx := { ChainCtx.powerOn with start := x.start, current := x.start }
    let base : State := { s with
      posted := [], wire := kept ++ s.wire
      ctl := { s.ctl with ctx := off s.ctl.ctx }
      evt := { ctx := off s.evt.ctx, fifo := [], blocks := [], writeBacks := [] }
      cap := { ctx := off s.cap.ctx, closing := none }
      pst := { s.pst with placed := 0, block := none, flushAt := none }
      prt := { s.prt with chains := .waitDone } }
    let v := base.left
    let effect (t : State) : Prop :=
      (s.pst.records = [] → t.prt.chains = .idle ∧ t.prt.notice.getLsbD 14 = true
          ∧ t = { base with lines := t.lines, prt := t.prt, ep := t.ep, wire := t.wire })
        ∧ (∀ first last, s.pst.records.head? = some first → s.pst.records.getLast? = some last →
            t = { v with
              sqm := (v.createNow (.discard first.seq last.seq)).sqm
              pst := { base.pst with records := [] }
              lines := t.lines
              prt := { v.prt with chains := .waitDiscard } })
        ∧ (∀ l : Fin 4, (t.line l).fifo = (s.line l).fifo
          ∧ (t.line l).hold = ((s.line l).evalFlow 0 s.pst.params.high s.pst.params.low).hold)
        ∧ ∃ sent : List Output, t.wire = sent ++ kept ++ s.wire ∧ ∀ o ∈ sent, o = .interrupt
    (s.served → s.prt.chains = .idle → s.cap.closing = none →
        ∃ t, exec .chains s = .next t ∧ effect t)
      ∧ (s.powered = true → s.osc = true ∨ s.pst.records = [] → s.prt.chains = .waitDone →
        s.cap.closing = none → s.timersDue = false → s.owed = false →
        ∃ t, exec .chainsResetEffect s = .next t ∧ effect t)
      ∧ (s.served → s.prt.chains = .idle → s.cap.closing ≠ none →
        exec .chains s = .next { s with prt := { s.prt with chains := .waitDone } })
      ∧ (s.served → s.prt.chains ≠ .idle → exec .chains s = .next s)
end

