-- ==== Sys2Proof/Laws/State.lean ====
section
/-!
SUPPORT. What each update of the state leaves as it was: one lemma per operation, its parts simp rules,
so that no proof unfolds a record update. An operation not named for a field changes it.
-/

namespace Sys2Proof.Machine

open Sys2Proof

/-! ## Plain updates -/

@[simp] theorem State.setLine_same (s : State) (l : Fin 4) (x : Line) :
    (s.setLine l x).rail33 = s.rail33 ∧ (s.setLine l x).rail09 = s.rail09
    ∧ (s.setLine l x).osc = s.osc ∧ (s.setLine l x).clock = s.clock ∧ (s.setLine l x).tb = s.tb
    ∧ (s.setLine l x).du = s.du ∧ (s.setLine l x).sqm = s.sqm ∧ (s.setLine l x).atu = s.atu
    ∧ (s.setLine l x).att = s.att ∧ (s.setLine l x).ctl = s.ctl ∧ (s.setLine l x).evt = s.evt
    ∧ (s.setLine l x).cap = s.cap ∧ (s.setLine l x).pst = s.pst ∧ (s.setLine l x).prt = s.prt
    ∧ (s.setLine l x).ep = s.ep ∧ (s.setLine l x).posted = s.posted ∧ (s.setLine l x).wire = s.wire
    ∧ (s.setLine l x).draws = s.draws ∧ (s.setLine l x).pending = s.pending := by
  refine ⟨rfl, rfl, rfl, rfl, rfl, rfl, rfl, rfl, rfl, rfl, rfl, rfl, rfl, rfl, rfl, rfl, rfl, rfl, rfl⟩

@[simp] theorem State.setGroup_same (s : State) (g : Fin 64) (x : Group) :
    (s.setGroup g x).rail33 = s.rail33 ∧ (s.setGroup g x).rail09 = s.rail09
    ∧ (s.setGroup g x).osc = s.osc ∧ (s.setGroup g x).clock = s.clock ∧ (s.setGroup g x).tb = s.tb
    ∧ (s.setGroup g x).du = s.du ∧ (s.setGroup g x).lines = s.lines ∧ (s.setGroup g x).sqm = s.sqm
    ∧ (s.setGroup g x).att = s.att ∧ (s.setGroup g x).ctl = s.ctl ∧ (s.setGroup g x).evt = s.evt
    ∧ (s.setGroup g x).cap = s.cap ∧ (s.setGroup g x).pst = s.pst ∧ (s.setGroup g x).prt = s.prt
    ∧ (s.setGroup g x).ep = s.ep ∧ (s.setGroup g x).posted = s.posted
    ∧ (s.setGroup g x).wire = s.wire ∧ (s.setGroup g x).draws = s.draws
    ∧ (s.setGroup g x).pending = s.pending := by
  refine ⟨rfl, rfl, rfl, rfl, rfl, rfl, rfl, rfl, rfl, rfl, rfl, rfl, rfl, rfl, rfl, rfl, rfl, rfl, rfl⟩

@[simp] theorem State.setAlarm_same (s : State) (a : Fin 8) (x : Option Alarm) :
    (s.setAlarm a x).rail33 = s.rail33 ∧ (s.setAlarm a x).rail09 = s.rail09
    ∧ (s.setAlarm a x).osc = s.osc ∧ (s.setAlarm a x).clock = s.clock ∧ (s.setAlarm a x).tb = s.tb
    ∧ (s.setAlarm a x).du = s.du ∧ (s.setAlarm a x).lines = s.lines ∧ (s.setAlarm a x).sqm = s.sqm
    ∧ (s.setAlarm a x).att = s.att ∧ (s.setAlarm a x).ctl = s.ctl ∧ (s.setAlarm a x).evt = s.evt
    ∧ (s.setAlarm a x).cap = s.cap ∧ (s.setAlarm a x).pst = s.pst ∧ (s.setAlarm a x).prt = s.prt
    ∧ (s.setAlarm a x).ep = s.ep ∧ (s.setAlarm a x).posted = s.posted
    ∧ (s.setAlarm a x).wire = s.wire ∧ (s.setAlarm a x).draws = s.draws
    ∧ (s.setAlarm a x).pending = s.pending := by
  refine ⟨rfl, rfl, rfl, rfl, rfl, rfl, rfl, rfl, rfl, rfl, rfl, rfl, rfl, rfl, rfl, rfl, rfl, rfl, rfl⟩

@[simp] theorem State.setCheck_same (s : State) (k : CheckInput) (x : Check) :
    (s.setCheck k x).rail33 = s.rail33 ∧ (s.setCheck k x).rail09 = s.rail09
    ∧ (s.setCheck k x).osc = s.osc ∧ (s.setCheck k x).clock = s.clock ∧ (s.setCheck k x).tb = s.tb
    ∧ (s.setCheck k x).du = s.du ∧ (s.setCheck k x).lines = s.lines ∧ (s.setCheck k x).sqm = s.sqm
    ∧ (s.setCheck k x).atu = s.atu ∧ (s.setCheck k x).ctl = s.ctl ∧ (s.setCheck k x).evt = s.evt
    ∧ (s.setCheck k x).cap = s.cap ∧ (s.setCheck k x).pst = s.pst ∧ (s.setCheck k x).prt = s.prt
    ∧ (s.setCheck k x).ep = s.ep ∧ (s.setCheck k x).posted = s.posted
    ∧ (s.setCheck k x).wire = s.wire ∧ (s.setCheck k x).draws = s.draws
    ∧ (s.setCheck k x).pending = s.pending := by
  cases k <;> refine ⟨rfl, rfl, rfl, rfl, rfl, rfl, rfl, rfl, rfl, rfl, rfl, rfl, rfl, rfl, rfl, rfl, rfl, rfl, rfl⟩

@[simp] theorem State.setCtx_same (s : State) (c : Chain) (x : ChainCtx) :
    (s.setCtx c x).rail33 = s.rail33 ∧ (s.setCtx c x).rail09 = s.rail09 ∧ (s.setCtx c x).osc = s.osc
    ∧ (s.setCtx c x).clock = s.clock ∧ (s.setCtx c x).tb = s.tb ∧ (s.setCtx c x).du = s.du
    ∧ (s.setCtx c x).lines = s.lines ∧ (s.setCtx c x).sqm = s.sqm ∧ (s.setCtx c x).atu = s.atu
    ∧ (s.setCtx c x).att = s.att ∧ (s.setCtx c x).pst = s.pst ∧ (s.setCtx c x).prt = s.prt
    ∧ (s.setCtx c x).ep = s.ep ∧ (s.setCtx c x).posted = s.posted ∧ (s.setCtx c x).wire = s.wire
    ∧ (s.setCtx c x).draws = s.draws ∧ (s.setCtx c x).pending = s.pending := by
  cases c <;> refine ⟨rfl, rfl, rfl, rfl, rfl, rfl, rfl, rfl, rfl, rfl, rfl, rfl, rfl, rfl, rfl, rfl, rfl⟩

@[simp] theorem State.message_same (s : State) (b : Bool) :
    (s.message b).rail33 = s.rail33 ∧ (s.message b).rail09 = s.rail09 ∧ (s.message b).osc = s.osc
    ∧ (s.message b).clock = s.clock ∧ (s.message b).tb = s.tb ∧ (s.message b).du = s.du
    ∧ (s.message b).lines = s.lines ∧ (s.message b).sqm = s.sqm ∧ (s.message b).atu = s.atu
    ∧ (s.message b).att = s.att ∧ (s.message b).ctl = s.ctl ∧ (s.message b).evt = s.evt
    ∧ (s.message b).cap = s.cap ∧ (s.message b).pst = s.pst ∧ (s.message b).prt = s.prt
    ∧ (s.message b).posted = s.posted ∧ (s.message b).draws = s.draws
    ∧ (s.message b).pending = s.pending := by
  refine ⟨rfl, rfl, rfl, rfl, rfl, rfl, rfl, rfl, rfl, rfl, rfl, rfl, rfl, rfl, rfl, rfl, rfl, rfl⟩

@[simp] theorem State.notify_same (s : State) (c : Cause) :
    (s.notify c).rail33 = s.rail33 ∧ (s.notify c).rail09 = s.rail09 ∧ (s.notify c).osc = s.osc
    ∧ (s.notify c).clock = s.clock ∧ (s.notify c).tb = s.tb ∧ (s.notify c).du = s.du
    ∧ (s.notify c).lines = s.lines ∧ (s.notify c).sqm = s.sqm ∧ (s.notify c).atu = s.atu
    ∧ (s.notify c).att = s.att ∧ (s.notify c).ctl = s.ctl ∧ (s.notify c).evt = s.evt
    ∧ (s.notify c).cap = s.cap ∧ (s.notify c).pst = s.pst ∧ (s.notify c).posted = s.posted
    ∧ (s.notify c).draws = s.draws ∧ (s.notify c).pending = s.pending := by
  refine ⟨rfl, rfl, rfl, rfl, rfl, rfl, rfl, rfl, rfl, rfl, rfl, rfl, rfl, rfl, rfl, rfl, rfl⟩

@[simp] theorem State.notifyIf_same (s : State) (b : Bool) (c : Cause) :
    (s.notifyIf b c).rail33 = s.rail33 ∧ (s.notifyIf b c).rail09 = s.rail09
    ∧ (s.notifyIf b c).osc = s.osc ∧ (s.notifyIf b c).clock = s.clock ∧ (s.notifyIf b c).tb = s.tb
    ∧ (s.notifyIf b c).du = s.du ∧ (s.notifyIf b c).lines = s.lines ∧ (s.notifyIf b c).sqm = s.sqm
    ∧ (s.notifyIf b c).atu = s.atu ∧ (s.notifyIf b c).att = s.att ∧ (s.notifyIf b c).ctl = s.ctl
    ∧ (s.notifyIf b c).evt = s.evt ∧ (s.notifyIf b c).cap = s.cap ∧ (s.notifyIf b c).pst = s.pst
    ∧ (s.notifyIf b c).posted = s.posted ∧ (s.notifyIf b c).draws = s.draws
    ∧ (s.notifyIf b c).pending = s.pending := by
  cases b
  · refine ⟨rfl, rfl, rfl, rfl, rfl, rfl, rfl, rfl, rfl, rfl, rfl, rfl, rfl, rfl, rfl, rfl, rfl⟩
  · exact State.notify_same s c

@[simp] theorem State.post_same (s : State) (ws : List HostWrite) :
    (s.post ws).rail33 = s.rail33 ∧ (s.post ws).rail09 = s.rail09 ∧ (s.post ws).osc = s.osc
    ∧ (s.post ws).clock = s.clock ∧ (s.post ws).tb = s.tb ∧ (s.post ws).du = s.du
    ∧ (s.post ws).lines = s.lines ∧ (s.post ws).sqm = s.sqm ∧ (s.post ws).atu = s.atu
    ∧ (s.post ws).att = s.att ∧ (s.post ws).ctl = s.ctl ∧ (s.post ws).evt = s.evt
    ∧ (s.post ws).cap = s.cap ∧ (s.post ws).pst = s.pst ∧ (s.post ws).prt = s.prt
    ∧ (s.post ws).ep = s.ep ∧ (s.post ws).wire = s.wire ∧ (s.post ws).draws = s.draws
    ∧ (s.post ws).pending = s.pending := by
  refine ⟨rfl, rfl, rfl, rfl, rfl, rfl, rfl, rfl, rfl, rfl, rfl, rfl, rfl, rfl, rfl, rfl, rfl, rfl, rfl⟩

@[simp] theorem State.create_same (s : State) (t : Stamp) (cls : TraceClass) (g : Nat) (late passed : Bool) (b : Body) :
    (s.create t cls g late passed b).rail33 = s.rail33
    ∧ (s.create t cls g late passed b).rail09 = s.rail09
    ∧ (s.create t cls g late passed b).osc = s.osc
    ∧ (s.create t cls g late passed b).clock = s.clock ∧ (s.create t cls g late passed b).tb = s.tb
    ∧ (s.create t cls g late passed b).du = s.du ∧ (s.create t cls g late passed b).lines = s.lines
    ∧ (s.create t cls g late passed b).atu = s.atu ∧ (s.create t cls g late passed b).att = s.att
    ∧ (s.create t cls g late passed b).ctl = s.ctl ∧ (s.create t cls g late passed b).evt = s.evt
    ∧ (s.create t cls g late passed b).cap = s.cap ∧ (s.create t cls g late passed b).pst = s.pst
    ∧ (s.create t cls g late passed b).prt = s.prt ∧ (s.create t cls g late passed b).ep = s.ep
    ∧ (s.create t cls g late passed b).posted = s.posted
    ∧ (s.create t cls g late passed b).wire = s.wire
    ∧ (s.create t cls g late passed b).draws = s.draws
    ∧ (s.create t cls g late passed b).pending = s.pending := by
  refine ⟨rfl, rfl, rfl, rfl, rfl, rfl, rfl, rfl, rfl, rfl, rfl, rfl, rfl, rfl, rfl, rfl, rfl, rfl, rfl⟩

@[simp] theorem State.createNow_same (s : State) (b : Body) :
    (s.createNow b).rail33 = s.rail33 ∧ (s.createNow b).rail09 = s.rail09
    ∧ (s.createNow b).osc = s.osc ∧ (s.createNow b).clock = s.clock ∧ (s.createNow b).tb = s.tb
    ∧ (s.createNow b).du = s.du ∧ (s.createNow b).lines = s.lines ∧ (s.createNow b).atu = s.atu
    ∧ (s.createNow b).att = s.att ∧ (s.createNow b).ctl = s.ctl ∧ (s.createNow b).evt = s.evt
    ∧ (s.createNow b).cap = s.cap ∧ (s.createNow b).pst = s.pst ∧ (s.createNow b).prt = s.prt
    ∧ (s.createNow b).ep = s.ep ∧ (s.createNow b).posted = s.posted ∧ (s.createNow b).wire = s.wire
    ∧ (s.createNow b).draws = s.draws ∧ (s.createNow b).pending = s.pending := by
  refine ⟨rfl, rfl, rfl, rfl, rfl, rfl, rfl, rfl, rfl, rfl, rfl, rfl, rfl, rfl, rfl, rfl, rfl, rfl, rfl⟩

@[simp] theorem State.removeRecords_same (s : State) (p : Internal → Bool) :
    (s.removeRecords p).rail33 = s.rail33 ∧ (s.removeRecords p).rail09 = s.rail09
    ∧ (s.removeRecords p).osc = s.osc ∧ (s.removeRecords p).clock = s.clock
    ∧ (s.removeRecords p).tb = s.tb ∧ (s.removeRecords p).du = s.du
    ∧ (s.removeRecords p).lines = s.lines ∧ (s.removeRecords p).atu = s.atu
    ∧ (s.removeRecords p).att = s.att ∧ (s.removeRecords p).ctl = s.ctl
    ∧ (s.removeRecords p).evt = s.evt ∧ (s.removeRecords p).cap = s.cap
    ∧ (s.removeRecords p).pst = s.pst ∧ (s.removeRecords p).prt = s.prt
    ∧ (s.removeRecords p).ep = s.ep ∧ (s.removeRecords p).posted = s.posted
    ∧ (s.removeRecords p).wire = s.wire ∧ (s.removeRecords p).draws = s.draws
    ∧ (s.removeRecords p).pending = s.pending := by
  refine ⟨rfl, rfl, rfl, rfl, rfl, rfl, rfl, rfl, rfl, rfl, rfl, rfl, rfl, rfl, rfl, rfl, rfl, rfl, rfl⟩

@[simp] theorem State.removeGroupRecords_same (s : State) (g : Fin 64) (p : Body → Bool) :
    (s.removeGroupRecords g p).rail33 = s.rail33 ∧ (s.removeGroupRecords g p).rail09 = s.rail09
    ∧ (s.removeGroupRecords g p).osc = s.osc ∧ (s.removeGroupRecords g p).clock = s.clock
    ∧ (s.removeGroupRecords g p).tb = s.tb ∧ (s.removeGroupRecords g p).du = s.du
    ∧ (s.removeGroupRecords g p).lines = s.lines ∧ (s.removeGroupRecords g p).atu = s.atu
    ∧ (s.removeGroupRecords g p).att = s.att ∧ (s.removeGroupRecords g p).ctl = s.ctl
    ∧ (s.removeGroupRecords g p).evt = s.evt ∧ (s.removeGroupRecords g p).cap = s.cap
    ∧ (s.removeGroupRecords g p).pst = s.pst ∧ (s.removeGroupRecords g p).prt = s.prt
    ∧ (s.removeGroupRecords g p).ep = s.ep ∧ (s.removeGroupRecords g p).posted = s.posted
    ∧ (s.removeGroupRecords g p).wire = s.wire ∧ (s.removeGroupRecords g p).draws = s.draws
    ∧ (s.removeGroupRecords g p).pending = s.pending := by
  refine ⟨rfl, rfl, rfl, rfl, rfl, rfl, rfl, rfl, rfl, rfl, rfl, rfl, rfl, rfl, rfl, rfl, rfl, rfl, rfl⟩

@[simp] theorem State.flowAll_same (s : State) :
    (s.flowAll).rail33 = s.rail33 ∧ (s.flowAll).rail09 = s.rail09 ∧ (s.flowAll).osc = s.osc
    ∧ (s.flowAll).clock = s.clock ∧ (s.flowAll).tb = s.tb ∧ (s.flowAll).du = s.du
    ∧ (s.flowAll).sqm = s.sqm ∧ (s.flowAll).atu = s.atu ∧ (s.flowAll).att = s.att
    ∧ (s.flowAll).ctl = s.ctl ∧ (s.flowAll).evt = s.evt ∧ (s.flowAll).cap = s.cap
    ∧ (s.flowAll).pst = s.pst ∧ (s.flowAll).prt = s.prt ∧ (s.flowAll).ep = s.ep
    ∧ (s.flowAll).posted = s.posted ∧ (s.flowAll).wire = s.wire ∧ (s.flowAll).draws = s.draws
    ∧ (s.flowAll).pending = s.pending := by
  refine ⟨rfl, rfl, rfl, rfl, rfl, rfl, rfl, rfl, rfl, rfl, rfl, rfl, rfl, rfl, rfl, rfl, rfl, rfl, rfl⟩

@[simp] theorem State.flowLine_same (s : State) (l : Fin 4) :
    (s.flowLine l).rail33 = s.rail33 ∧ (s.flowLine l).rail09 = s.rail09 ∧ (s.flowLine l).osc = s.osc
    ∧ (s.flowLine l).clock = s.clock ∧ (s.flowLine l).tb = s.tb ∧ (s.flowLine l).du = s.du
    ∧ (s.flowLine l).sqm = s.sqm ∧ (s.flowLine l).atu = s.atu ∧ (s.flowLine l).att = s.att
    ∧ (s.flowLine l).ctl = s.ctl ∧ (s.flowLine l).evt = s.evt ∧ (s.flowLine l).cap = s.cap
    ∧ (s.flowLine l).pst = s.pst ∧ (s.flowLine l).prt = s.prt ∧ (s.flowLine l).ep = s.ep
    ∧ (s.flowLine l).posted = s.posted ∧ (s.flowLine l).wire = s.wire
    ∧ (s.flowLine l).draws = s.draws ∧ (s.flowLine l).pending = s.pending := by
  refine ⟨rfl, rfl, rfl, rfl, rfl, rfl, rfl, rfl, rfl, rfl, rfl, rfl, rfl, rfl, rfl, rfl, rfl, rfl, rfl⟩

@[simp] theorem State.setRecords_same (s : State) (rs : List Record) :
    (s.setRecords rs).rail33 = s.rail33 ∧ (s.setRecords rs).rail09 = s.rail09
    ∧ (s.setRecords rs).osc = s.osc ∧ (s.setRecords rs).clock = s.clock
    ∧ (s.setRecords rs).tb = s.tb ∧ (s.setRecords rs).du = s.du ∧ (s.setRecords rs).sqm = s.sqm
    ∧ (s.setRecords rs).atu = s.atu ∧ (s.setRecords rs).att = s.att ∧ (s.setRecords rs).ctl = s.ctl
    ∧ (s.setRecords rs).evt = s.evt ∧ (s.setRecords rs).cap = s.cap
    ∧ (s.setRecords rs).posted = s.posted ∧ (s.setRecords rs).draws = s.draws
    ∧ (s.setRecords rs).pending = s.pending := by
  simp [State.setRecords]

@[simp] theorem State.enterBlock_same (s : State) (c : Chain) (a : BitVec 64) :
    (s.enterBlock c a).rail33 = s.rail33 ∧ (s.enterBlock c a).rail09 = s.rail09
    ∧ (s.enterBlock c a).osc = s.osc ∧ (s.enterBlock c a).clock = s.clock
    ∧ (s.enterBlock c a).tb = s.tb ∧ (s.enterBlock c a).du = s.du
    ∧ (s.enterBlock c a).lines = s.lines ∧ (s.enterBlock c a).sqm = s.sqm
    ∧ (s.enterBlock c a).atu = s.atu ∧ (s.enterBlock c a).att = s.att
    ∧ (s.enterBlock c a).pst = s.pst ∧ (s.enterBlock c a).prt = s.prt ∧ (s.enterBlock c a).ep = s.ep
    ∧ (s.enterBlock c a).posted = s.posted ∧ (s.enterBlock c a).wire = s.wire
    ∧ (s.enterBlock c a).draws = s.draws ∧ (s.enterBlock c a).pending = s.pending := by
  simp [State.enterBlock]

@[simp] theorem State.readNext_same (s : State) (c : Chain) :
    (s.readNext c).rail33 = s.rail33 ∧ (s.readNext c).rail09 = s.rail09 ∧ (s.readNext c).osc = s.osc
    ∧ (s.readNext c).clock = s.clock ∧ (s.readNext c).tb = s.tb ∧ (s.readNext c).du = s.du
    ∧ (s.readNext c).lines = s.lines ∧ (s.readNext c).sqm = s.sqm ∧ (s.readNext c).atu = s.atu
    ∧ (s.readNext c).att = s.att ∧ (s.readNext c).pst = s.pst ∧ (s.readNext c).prt = s.prt
    ∧ (s.readNext c).ep = s.ep ∧ (s.readNext c).posted = s.posted ∧ (s.readNext c).wire = s.wire
    ∧ (s.readNext c).draws = s.draws ∧ (s.readNext c).pending = s.pending := by
  simp [State.readNext]

@[simp] theorem State.park_same (s : State) (c : Chain) (k : ParkKind) :
    (s.park c k).rail33 = s.rail33 ∧ (s.park c k).rail09 = s.rail09 ∧ (s.park c k).osc = s.osc
    ∧ (s.park c k).clock = s.clock ∧ (s.park c k).tb = s.tb ∧ (s.park c k).du = s.du
    ∧ (s.park c k).lines = s.lines ∧ (s.park c k).sqm = s.sqm ∧ (s.park c k).atu = s.atu
    ∧ (s.park c k).att = s.att ∧ (s.park c k).pst = s.pst ∧ (s.park c k).posted = s.posted
    ∧ (s.park c k).draws = s.draws ∧ (s.park c k).pending = s.pending := by
  generalize ht : s.park c k = t
  unfold State.park at ht; try dsimp only at ht
  (repeat' split at ht) <;> subst ht <;> simp

@[simp] theorem State.enterFault_same (s : State) (c : Chain) (f : FaultCause) (a : BitVec 64) :
    (s.enterFault c f a).rail33 = s.rail33 ∧ (s.enterFault c f a).rail09 = s.rail09
    ∧ (s.enterFault c f a).osc = s.osc ∧ (s.enterFault c f a).clock = s.clock
    ∧ (s.enterFault c f a).tb = s.tb ∧ (s.enterFault c f a).du = s.du
    ∧ (s.enterFault c f a).lines = s.lines ∧ (s.enterFault c f a).sqm = s.sqm
    ∧ (s.enterFault c f a).atu = s.atu ∧ (s.enterFault c f a).att = s.att
    ∧ (s.enterFault c f a).pst = s.pst ∧ (s.enterFault c f a).posted = s.posted
    ∧ (s.enterFault c f a).draws = s.draws ∧ (s.enterFault c f a).pending = s.pending := by
  simp [State.enterFault]

@[simp] theorem State.followNext_same (s : State) (c : Chain) (a : BitVec 64) :
    (s.followNext c a).rail33 = s.rail33 ∧ (s.followNext c a).rail09 = s.rail09
    ∧ (s.followNext c a).osc = s.osc ∧ (s.followNext c a).clock = s.clock
    ∧ (s.followNext c a).tb = s.tb ∧ (s.followNext c a).du = s.du
    ∧ (s.followNext c a).lines = s.lines ∧ (s.followNext c a).sqm = s.sqm
    ∧ (s.followNext c a).atu = s.atu ∧ (s.followNext c a).att = s.att
    ∧ (s.followNext c a).pst = s.pst ∧ (s.followNext c a).posted = s.posted
    ∧ (s.followNext c a).draws = s.draws ∧ (s.followNext c a).pending = s.pending := by
  generalize ht : s.followNext c a = t
  unfold State.followNext at ht; try dsimp only at ht
  (repeat' split at ht) <;> subst ht <;> simp

@[simp] theorem State.placeCounter_same (s : State) (p : Instant) (fr ep' : Nat) :
    (s.placeCounter p fr ep').rail33 = s.rail33 ∧ (s.placeCounter p fr ep').rail09 = s.rail09
    ∧ (s.placeCounter p fr ep').osc = s.osc ∧ (s.placeCounter p fr ep').du = s.du
    ∧ (s.placeCounter p fr ep').lines = s.lines ∧ (s.placeCounter p fr ep').sqm = s.sqm
    ∧ (s.placeCounter p fr ep').atu = s.atu ∧ (s.placeCounter p fr ep').att = s.att
    ∧ (s.placeCounter p fr ep').ctl = s.ctl ∧ (s.placeCounter p fr ep').evt = s.evt
    ∧ (s.placeCounter p fr ep').cap = s.cap ∧ (s.placeCounter p fr ep').pst = s.pst
    ∧ (s.placeCounter p fr ep').prt = s.prt ∧ (s.placeCounter p fr ep').ep = s.ep
    ∧ (s.placeCounter p fr ep').posted = s.posted ∧ (s.placeCounter p fr ep').wire = s.wire
    ∧ (s.placeCounter p fr ep').draws = s.draws ∧ (s.placeCounter p fr ep').pending = s.pending := by
  refine ⟨rfl, rfl, rfl, rfl, rfl, rfl, rfl, rfl, rfl, rfl, rfl, rfl, rfl, rfl, rfl, rfl, rfl, rfl⟩

@[simp] theorem State.handOver_same (s : State) :
    (s.handOver).rail33 = s.rail33 ∧ (s.handOver).rail09 = s.rail09 ∧ (s.handOver).osc = s.osc
    ∧ (s.handOver).clock = s.clock ∧ (s.handOver).tb = s.tb ∧ (s.handOver).du = s.du
    ∧ (s.handOver).lines = s.lines ∧ (s.handOver).sqm = s.sqm ∧ (s.handOver).atu = s.atu
    ∧ (s.handOver).ctl = s.ctl ∧ (s.handOver).evt = s.evt ∧ (s.handOver).cap = s.cap
    ∧ (s.handOver).pst = s.pst ∧ (s.handOver).prt = s.prt ∧ (s.handOver).ep = s.ep
    ∧ (s.handOver).posted = s.posted ∧ (s.handOver).wire = s.wire ∧ (s.handOver).draws = s.draws
    ∧ (s.handOver).pending = s.pending := by
  refine ⟨rfl, rfl, rfl, rfl, rfl, rfl, rfl, rfl, rfl, rfl, rfl, rfl, rfl, rfl, rfl, rfl, rfl, rfl, rfl⟩

@[simp] theorem State.handHeld_same (s : State) :
    (s.handHeld).rail33 = s.rail33 ∧ (s.handHeld).rail09 = s.rail09 ∧ (s.handHeld).osc = s.osc
    ∧ (s.handHeld).clock = s.clock ∧ (s.handHeld).tb = s.tb ∧ (s.handHeld).du = s.du
    ∧ (s.handHeld).lines = s.lines ∧ (s.handHeld).sqm = s.sqm ∧ (s.handHeld).atu = s.atu
    ∧ (s.handHeld).ctl = s.ctl ∧ (s.handHeld).evt = s.evt ∧ (s.handHeld).cap = s.cap
    ∧ (s.handHeld).pst = s.pst ∧ (s.handHeld).prt = s.prt ∧ (s.handHeld).ep = s.ep
    ∧ (s.handHeld).posted = s.posted ∧ (s.handHeld).wire = s.wire ∧ (s.handHeld).draws = s.draws
    ∧ (s.handHeld).pending = s.pending := by
  refine ⟨rfl, rfl, rfl, rfl, rfl, rfl, rfl, rfl, rfl, rfl, rfl, rfl, rfl, rfl, rfl, rfl, rfl, rfl, rfl⟩

@[simp] theorem State.handServo_same (s : State) (θ : Int) :
    (s.handServo θ).rail33 = s.rail33 ∧ (s.handServo θ).rail09 = s.rail09
    ∧ (s.handServo θ).osc = s.osc ∧ (s.handServo θ).clock = s.clock ∧ (s.handServo θ).tb = s.tb
    ∧ (s.handServo θ).du = s.du ∧ (s.handServo θ).lines = s.lines ∧ (s.handServo θ).sqm = s.sqm
    ∧ (s.handServo θ).atu = s.atu ∧ (s.handServo θ).ctl = s.ctl ∧ (s.handServo θ).evt = s.evt
    ∧ (s.handServo θ).cap = s.cap ∧ (s.handServo θ).pst = s.pst ∧ (s.handServo θ).prt = s.prt
    ∧ (s.handServo θ).ep = s.ep ∧ (s.handServo θ).posted = s.posted ∧ (s.handServo θ).wire = s.wire
    ∧ (s.handServo θ).draws = s.draws ∧ (s.handServo θ).pending = s.pending := by
  refine ⟨rfl, rfl, rfl, rfl, rfl, rfl, rfl, rfl, rfl, rfl, rfl, rfl, rfl, rfl, rfl, rfl, rfl, rfl, rfl⟩

@[simp] theorem State.handReference_same (s : State) (v : Seen) :
    (s.handReference v).rail33 = s.rail33 ∧ (s.handReference v).rail09 = s.rail09
    ∧ (s.handReference v).osc = s.osc ∧ (s.handReference v).clock = s.clock
    ∧ (s.handReference v).tb = s.tb ∧ (s.handReference v).du = s.du
    ∧ (s.handReference v).lines = s.lines ∧ (s.handReference v).sqm = s.sqm
    ∧ (s.handReference v).atu = s.atu ∧ (s.handReference v).ctl = s.ctl
    ∧ (s.handReference v).evt = s.evt ∧ (s.handReference v).cap = s.cap
    ∧ (s.handReference v).pst = s.pst ∧ (s.handReference v).prt = s.prt
    ∧ (s.handReference v).ep = s.ep ∧ (s.handReference v).posted = s.posted
    ∧ (s.handReference v).wire = s.wire ∧ (s.handReference v).draws = s.draws
    ∧ (s.handReference v).pending = s.pending := by
  refine ⟨rfl, rfl, rfl, rfl, rfl, rfl, rfl, rfl, rfl, rfl, rfl, rfl, rfl, rfl, rfl, rfl, rfl, rfl, rfl⟩

@[simp] theorem State.moveEvidence_same (s : State) (p : Instant) :
    (s.moveEvidence p).rail33 = s.rail33 ∧ (s.moveEvidence p).rail09 = s.rail09
    ∧ (s.moveEvidence p).osc = s.osc ∧ (s.moveEvidence p).clock = s.clock
    ∧ (s.moveEvidence p).tb = s.tb ∧ (s.moveEvidence p).du = s.du
    ∧ (s.moveEvidence p).lines = s.lines ∧ (s.moveEvidence p).sqm = s.sqm
    ∧ (s.moveEvidence p).atu = s.atu ∧ (s.moveEvidence p).ctl = s.ctl
    ∧ (s.moveEvidence p).evt = s.evt ∧ (s.moveEvidence p).cap = s.cap
    ∧ (s.moveEvidence p).pst = s.pst ∧ (s.moveEvidence p).prt = s.prt ∧ (s.moveEvidence p).ep = s.ep
    ∧ (s.moveEvidence p).posted = s.posted ∧ (s.moveEvidence p).wire = s.wire
    ∧ (s.moveEvidence p).draws = s.draws ∧ (s.moveEvidence p).pending = s.pending := by
  refine ⟨rfl, rfl, rfl, rfl, rfl, rfl, rfl, rfl, rfl, rfl, rfl, rfl, rfl, rfl, rfl, rfl, rfl, rfl, rfl⟩

@[simp] theorem State.setInc_same (s : State) :
    (s.setInc).rail33 = s.rail33 ∧ (s.setInc).rail09 = s.rail09 ∧ (s.setInc).osc = s.osc
    ∧ (s.setInc).clock = s.clock ∧ (s.setInc).du = s.du ∧ (s.setInc).lines = s.lines
    ∧ (s.setInc).sqm = s.sqm ∧ (s.setInc).atu = s.atu ∧ (s.setInc).att = s.att
    ∧ (s.setInc).ctl = s.ctl ∧ (s.setInc).evt = s.evt ∧ (s.setInc).cap = s.cap
    ∧ (s.setInc).pst = s.pst ∧ (s.setInc).prt = s.prt ∧ (s.setInc).ep = s.ep
    ∧ (s.setInc).posted = s.posted ∧ (s.setInc).wire = s.wire ∧ (s.setInc).draws = s.draws
    ∧ (s.setInc).pending = s.pending := by
  refine ⟨rfl, rfl, rfl, rfl, rfl, rfl, rfl, rfl, rfl, rfl, rfl, rfl, rfl, rfl, rfl, rfl, rfl, rfl, rfl⟩

@[simp] theorem State.useNumber_same (s : State) :
    (s.useNumber).rail33 = s.rail33 ∧ (s.useNumber).rail09 = s.rail09 ∧ (s.useNumber).osc = s.osc
    ∧ (s.useNumber).clock = s.clock ∧ (s.useNumber).tb = s.tb ∧ (s.useNumber).du = s.du
    ∧ (s.useNumber).lines = s.lines ∧ (s.useNumber).atu = s.atu ∧ (s.useNumber).att = s.att
    ∧ (s.useNumber).ctl = s.ctl ∧ (s.useNumber).evt = s.evt ∧ (s.useNumber).cap = s.cap
    ∧ (s.useNumber).pst = s.pst ∧ (s.useNumber).prt = s.prt ∧ (s.useNumber).ep = s.ep
    ∧ (s.useNumber).posted = s.posted ∧ (s.useNumber).wire = s.wire ∧ (s.useNumber).draws = s.draws
    ∧ (s.useNumber).pending = s.pending := by
  refine ⟨rfl, rfl, rfl, rfl, rfl, rfl, rfl, rfl, rfl, rfl, rfl, rfl, rfl, rfl, rfl, rfl, rfl, rfl, rfl⟩

end Sys2Proof.Machine
end

