-- ==== Sys2Proof/Laws/Access.lean ====
section
/-!
SUPPORT. Reading after writing: a line, group, alarm, check input or chain context that was replaced reads
as what replaced it, and every other one reads as before; what the shared operations do to the fields they
change.
-/

namespace Sys2Proof.Machine

open Sys2Proof

/-! ## Lines, groups, alarms, check inputs, chain contexts -/

@[simp] theorem Quad.get_set {α : Type} (q : Quad α) (l : Fin 4) (a : α) : (q.set l a).get l = a := by
  fin_cases l <;> rfl

theorem Quad.get_set_ne {α : Type} (q : Quad α) {l k : Fin 4} (a : α) (h : k ≠ l) :
    (q.set l a).get k = q.get k := by
  fin_cases l <;> fin_cases k <;> first | rfl | exact absurd rfl h

@[simp] theorem Quad.get_map {α β : Type} (f : α → β) (q : Quad α) (l : Fin 4) :
    (q.map f).get l = f (q.get l) := by
  fin_cases l <;> rfl

@[simp] theorem Quad.get_zip {α β γ : Type} (f : α → β → γ) (p : Quad α) (q : Quad β) (l : Fin 4) :
    (Quad.zip f p q).get l = f (p.get l) (q.get l) := by
  fin_cases l <;> rfl

theorem Quad.allB_iff {α : Type} (f : α → Bool) (q : Quad α) :
    q.allB f = true ↔ ∀ l : Fin 4, f (q.get l) = true := by
  constructor
  · intro h l
    simp only [Quad.allB, Bool.and_eq_true] at h
    fin_cases l
    · exact h.1.1.1
    · exact h.1.1.2
    · exact h.1.2
    · exact h.2
  · intro h
    simp only [Quad.allB, Bool.and_eq_true]
    exact ⟨⟨⟨h 0, h 1⟩, h 2⟩, h 3⟩

@[simp] theorem State.setLine_line (s : State) (l : Fin 4) (x : Line) : (s.setLine l x).line l = x :=
  Quad.get_set _ _ _

theorem State.setLine_line_ne (s : State) {l k : Fin 4} (x : Line) (h : k ≠ l) :
    (s.setLine l x).line k = s.line k :=
  Quad.get_set_ne _ _ h

@[simp] theorem State.setGroup_group (s : State) (g : Fin 64) (x : Group) : (s.setGroup g x).group g = x := by
  exact Vector.getElem_set_self (xs := s.atu.groups) g.isLt

theorem State.setGroup_group_ne (s : State) {g k : Fin 64} (x : Group) (h : k ≠ g) :
    (s.setGroup g x).group k = s.group k := by
  have hne : g.val ≠ k.val := fun e => h (Fin.ext e.symm)
  exact Vector.getElem_set_ne (xs := s.atu.groups) g.isLt k.isLt hne

@[simp] theorem State.setGroup_alarm (s : State) (g : Fin 64) (x : Group) (a : Fin 8) :
    (s.setGroup g x).alarm a = s.alarm a := rfl

@[simp] theorem State.setGroup_generator (s : State) (g : Fin 64) (x : Group) :
    (s.setGroup g x).atu.generator = s.atu.generator := rfl

@[simp] theorem State.setAlarm_alarm (s : State) (a : Fin 8) (x : Option Alarm) :
    (s.setAlarm a x).alarm a = x := by
  exact Vector.getElem_set_self (xs := s.atu.alarms) a.isLt

theorem State.setAlarm_alarm_ne (s : State) {a k : Fin 8} (x : Option Alarm) (h : k ≠ a) :
    (s.setAlarm a x).alarm k = s.alarm k := by
  have hne : a.val ≠ k.val := fun e => h (Fin.ext e.symm)
  exact Vector.getElem_set_ne (xs := s.atu.alarms) a.isLt k.isLt hne

@[simp] theorem State.setAlarm_group (s : State) (a : Fin 8) (x : Option Alarm) (g : Fin 64) :
    (s.setAlarm a x).group g = s.group g := rfl

@[simp] theorem State.setAlarm_generator (s : State) (a : Fin 8) (x : Option Alarm) :
    (s.setAlarm a x).atu.generator = s.atu.generator := rfl

@[simp] theorem State.setCheck_check (s : State) (k : CheckInput) (x : Check) :
    (s.setCheck k x).check k = x := by
  cases k <;> rfl

theorem State.setCheck_check_ne (s : State) {k j : CheckInput} (x : Check) (h : j ≠ k) :
    (s.setCheck k x).check j = s.check j := by
  cases k <;> cases j <;> first | rfl | exact absurd rfl h

@[simp] theorem State.setCtx_ctx (s : State) (c : Chain) (x : ChainCtx) : (s.setCtx c x).ctx c = x := by
  cases c <;> rfl

theorem State.setCtx_ctx_ne (s : State) {c d : Chain} (x : ChainCtx) (h : d ≠ c) :
    (s.setCtx c x).ctx d = s.ctx d := by
  cases c <;> cases d <;> first | rfl | exact absurd rfl h

/-! ## What the shared operations do -/

/-- A notice sets its bit of NOTICE and leaves the others and NOTICE_ENABLE as they are (R183). -/
theorem State.notify_prt (s : State) (c : Cause) :
    (s.notify c).prt = { s.prt with notice := s.prt.notice ||| c.mask } := rfl

@[simp] theorem State.notify_chains (s : State) (c : Cause) : (s.notify c).prt.chains = s.prt.chains := rfl
@[simp] theorem State.notify_auctions (s : State) (c : Cause) : (s.notify c).prt.auctions = s.prt.auctions := rfl
@[simp] theorem State.notify_enable (s : State) (c : Cause) : (s.notify c).prt.enable = s.prt.enable := rfl

@[simp] theorem State.notifyIf_chains (s : State) (b : Bool) (c : Cause) :
    (s.notifyIf b c).prt.chains = s.prt.chains := by
  cases b <;> rfl

@[simp] theorem State.notifyIf_auctions (s : State) (b : Bool) (c : Cause) :
    (s.notifyIf b c).prt.auctions = s.prt.auctions := by
  cases b <;> rfl

/-- Host writes are issued in order, behind those in flight, and none while a CHAINS scope waits (R186). -/
theorem State.post_posted (s : State) (ws : List HostWrite) :
    (s.post ws).posted = if s.halted then s.posted else s.posted ++ ws := rfl

/-- PST holds the records it is given, and nothing else of it changes. -/
@[simp] theorem State.setRecords_pst (s : State) (rs : List Record) :
    (s.setRecords rs).pst = { s.pst with records := rs } := by
  simp [State.setRecords]

/-- A created record takes the next creation order. -/
theorem State.create_sqm (s : State) (t : Stamp) (cls : TraceClass) (g : Nat) (late passed : Bool) (b : Body) :
    (s.create t cls g late passed b).sqm = { s.sqm with
      created := s.sqm.created + 1
      agenda := arrive
        { stamp := t, cls := cls, group := g, late := late, steppedOver := passed, coalesced := false,
          count := 1, order := s.sqm.created, body := b } s.sqm.agenda } := rfl

/-- What a park does: averted by a remembered RESUME, it starts the re-read; else the chain is PARKED
there and CHAIN_PARKED is set (R142, R146). -/
theorem State.park_cases (s : State) (c : Chain) (k : ParkKind) :
    ((s.ctx c).remembered = true ∧ s.park c k = s.setCtx c
        { s.ctx c with remembered := false, walk := if k = .onBlock then .header else .next })
      ∨ ((s.ctx c).remembered = false ∧ s.park c k = (s.setCtx c
        { s.ctx c with state := .parked, park := some k, walk := .none }).notify .chainParked) := by
  cases h : (s.ctx c).remembered
  · right; exact ⟨rfl, by simp [State.park, h]⟩
  · left; exact ⟨rfl, by simp [State.park, h]⟩

/-- What a walk does with the address it left its block by (R145). -/
theorem State.followNext_cases (s : State) (c : Chain) (a : BitVec 64) :
    (a = 0#64 ∧ s.followNext c a = s.park c .atEnd)
      ∨ (a ≠ 0#64 ∧ misaligned a = true ∧ s.followNext c a = s.enterFault c .align a)
      ∨ (a ≠ 0#64 ∧ misaligned a = false ∧ s.followNext c a = s.enterBlock c a) := by
  unfold State.followNext
  by_cases h : a = 0#64
  · left; exact ⟨h, if_pos h⟩
  · right
    cases hm : misaligned a
    · right; exact ⟨h, rfl, by rw [if_neg h]; simp⟩
    · left; exact ⟨h, rfl, by rw [if_neg h]; simp⟩

end Sys2Proof.Machine
end

