-- ==== Sys2Proof/Laws/Agenda.lean ====
section
/-!
SUPPORT. The internal agenda (4.5): its order is a strict order of keys, insertion adds one record and
keeps the order, and a merge changes neither the class nor the place of the record that waits.
-/

namespace Sys2Proof.Machine

open Sys2Proof

/-! ## The order of keys -/

theorem keyLt_irrefl (a : List Nat) : keyLt a a = false := by
  induction a with
  | nil => rfl
  | cons x xs ih => simp [keyLt, ih]

theorem keyLt_trans {a b c : List Nat} (h1 : keyLt a b = true) (h2 : keyLt b c = true) :
    keyLt a c = true := by
  induction a generalizing b c with
  | nil =>
    cases c with
    | nil => cases b <;> simp [keyLt] at h2
    | cons => rfl
  | cons x xs ih =>
    cases b with
    | nil => simp [keyLt] at h1
    | cons y ys =>
      cases c with
      | nil => simp [keyLt] at h2
      | cons z zs =>
        simp only [keyLt, Bool.or_eq_true, Bool.and_eq_true, decide_eq_true_eq, beq_iff_eq] at *
        rcases h1 with h1 | ⟨rfl, h1⟩ <;> rcases h2 with h2 | ⟨rfl, h2⟩
        · left; omega
        · left; exact h1
        · left; exact h2
        · right; exact ⟨rfl, ih h1 h2⟩

/-- Of two different keys of one length one comes first. -/
theorem keyLt_total {a b : List Nat} (hl : a.length = b.length) (hne : a ≠ b) :
    keyLt a b = true ∨ keyLt b a = true := by
  induction a generalizing b with
  | nil => cases b <;> simp_all
  | cons x xs ih =>
    cases b with
    | nil => simp at hl
    | cons y ys =>
      simp only [keyLt, Bool.or_eq_true, Bool.and_eq_true, decide_eq_true_eq, beq_iff_eq]
      by_cases hxy : x = y
      · subst hxy
        have := ih (b := ys) (by simpa using hl) (fun e => hne (by rw [e]))
        rcases this with h | h
        · left; right; exact ⟨rfl, h⟩
        · right; right; exact ⟨rfl, h⟩
      · rcases Nat.lt_or_gt_of_ne hxy with h | h
        · left; left; exact h
        · right; left; exact h

theorem Internal.key_length (e : Internal) : e.key.length = 7 := rfl

/-- Records of different creation orders have different keys. -/
theorem Internal.key_ne {a b : Internal} (h : a.order ≠ b.order) : a.key ≠ b.key := by
  intro e
  apply h
  simpa [Internal.key] using congrArg (fun l : List Nat => l.getD 6 0) e

/-! ## Insertion -/

/-- Insertion adds the record and nothing else. -/
theorem mem_insertAgenda {e x : Internal} {l : List Internal} :
    x ∈ insertAgenda e l ↔ x = e ∨ x ∈ l := by
  induction l with
  | nil => simp [insertAgenda]
  | cons w ws ih =>
    unfold insertAgenda
    split
    · simp
    · simp only [List.mem_cons, ih]; tauto

theorem insertAgenda_length (e : Internal) (l : List Internal) :
    (insertAgenda e l).length = l.length + 1 := by
  induction l with
  | nil => rfl
  | cons w ws ih => unfold insertAgenda; split <;> simp [ih]

/-- Insertion keeps a property that holds between any two different records of a list, if the new record
has it with every one of them either way round. -/
theorem insertAgenda_pairwise {R : Internal → Internal → Prop} {e : Internal} {l : List Internal}
    (hl : l.Pairwise R) (h1 : ∀ w ∈ l, keyLt e.key w.key = true → R e w)
    (h2 : ∀ w ∈ l, keyLt e.key w.key = false → R w e)
    (h3 : ∀ w ∈ l, keyLt e.key w.key = true → ∀ v ∈ l, R w v → R e v) :
    (insertAgenda e l).Pairwise R := by
  induction l with
  | nil => simp [insertAgenda]
  | cons w ws ih =>
    have hw := List.pairwise_cons.mp hl
    unfold insertAgenda
    split
    · rename_i hk
      refine List.pairwise_cons.mpr ⟨?_, hl⟩
      intro v hv
      rcases List.mem_cons.mp hv with rfl | hv'
      · exact h1 _ (by simp) hk
      · exact h3 w (by simp) hk v (by simp [hv']) (hw.1 v hv')
    · rename_i hk
      refine List.pairwise_cons.mpr ⟨?_, ih hw.2 (fun v hv => h1 v (by simp [hv]))
        (fun v hv => h2 v (by simp [hv])) (fun v hv hk' u hu => h3 v (by simp [hv]) hk' u (by simp [hu]))⟩
      intro v hv
      rcases mem_insertAgenda.mp hv with rfl | hv'
      · exact h2 w (by simp) (by simpa using hk)
      · exact hw.1 v hv'

/-! ## Merging -/

theorem ClockBody.merge_code (w a : ClockBody) : (w.merge a).code = w.code := by
  cases w <;> cases a <;> rfl

theorem Body.merge_kindRank (w a : Body) : (w.merge a).kindRank = w.kindRank := by
  cases w <;> cases a <;> rfl

theorem Body.merge_groupRank (w a : Body) : (w.merge a).groupRank = w.groupRank := by
  cases w <;> cases a <;> rfl

/-- A merge keeps the place of the record that waits. -/
theorem Internal.merge_key (w a : Internal) : (w.merge a).key = w.key := by
  obtain ⟨t, c, g, l, st, co, n, o, b⟩ := w
  cases b <;> cases h : a.body <;> simp [Internal.merge, Internal.key, Internal.subject, h, Body.merge,
    Body.kindRank, Body.groupRank, Body.isGroup]

/-- A merge keeps the coalescing class. -/
theorem Body.sameClass_merge (w a b : Body) : (w.merge a).sameClass b = w.sameClass b := by
  cases w <;> cases a <;> cases b <;> simp [Body.merge, Body.sameClass, ClockBody.merge_code]

theorem Body.sameClass_symm (a b : Body) : a.sameClass b = b.sameClass a := by
  cases a <;> cases b <;> simp [Body.sameClass, Bool.beq_comm]

/-- What the arrival of a record does: with no record of its class waiting it is added, else the agenda
keeps its length and the record of its class takes it in (R87). -/
theorem arrive_cases (e : Internal) (agenda : List Internal) :
    ((∀ w ∈ agenda, w.body.sameClass e.body = false) ∧ arrive e agenda = insertAgenda e agenda)
      ∨ ((∃ w ∈ agenda, w.body.sameClass e.body = true)
        ∧ arrive e agenda = agenda.map fun w => if w.body.sameClass e.body then w.merge e else w) := by
  unfold arrive
  by_cases h : agenda.any (fun w => w.body.sameClass e.body) = true
  · right
    exact ⟨by simpa using h, if_pos h⟩
  · left
    refine ⟨?_, if_neg h⟩
    intro w hw
    by_contra hc
    exact h (List.any_eq_true.mpr ⟨w, hw, by simpa using hc⟩)

end Sys2Proof.Machine
end

