-- ==== Sys2Proof/Laws/Arith.lean ====
section
/-!
SUPPORT. Bounds of the arithmetic: rounding, clamping, INC, the servo, and instants on the counter.
-/

namespace Sys2Proof.Machine

open Sys2Proof

/-! ## Rounding, clamping, saturation -/

/-- A rounded quotient is the quotient of the magnitudes plus one half, with the sign of the numerator. -/
theorem roundDiv_natAbs (n : Int) (d : Nat) : (roundDiv n d).natAbs = (2 * n.natAbs + d) / (2 * d) := by
  unfold roundDiv
  split
  · exact (Int.natAbs_neg _).trans (Int.natAbs_natCast _)
  · exact Int.natAbs_natCast _

/-- Rounding is symmetric about zero. -/
theorem roundDiv_neg (n : Int) (d : Nat) (hd : 0 < d) : roundDiv (-n) d = -roundDiv n d := by
  unfold roundDiv
  dsimp only
  rw [Int.natAbs_neg]
  rcases lt_trichotomy n 0 with h | h | h
  · rw [if_neg (by omega), if_pos h, neg_neg]
  · subst h
    have h0 : (2 * (0 : Int).natAbs + d) / (2 * d) = 0 := Nat.div_eq_of_lt (by simp; omega)
    rw [h0]; rfl
  · rw [if_pos (by omega), if_neg (by omega)]

theorem clamp_natAbs_le (v : Int) (l : Nat) : (clamp v l).natAbs ≤ l := by
  unfold clamp; split_ifs <;> omega

theorem clamp_of_natAbs_le {v : Int} {l : Nat} (h : v.natAbs ≤ l) : clamp v l = v := by
  unfold clamp; split_ifs <;> omega

theorem satAdd_le (n a b : Nat) : satAdd n a b ≤ n := Nat.min_le_left _ _

/-! ## INC (R4) -/

theorem incOf_zero : incOf 0 = Config.nominalInc := by decide

theorem half_up_le (m : Nat) (h : m ≤ 500000 * Config.nominalInc) :
    (2 * m + Config.second) / (2 * Config.second) ≤ 8589935 := by
  simp only [Config.nominalInc, Config.second] at *
  omega

/-- Within the largest slew limit INC stays within 17,171,279,249 to 17,188,459,119 (R4). -/
theorem incOf_bounds {c : Int} (h : c.natAbs ≤ 500000) :
    17171279249 ≤ incOf c ∧ incOf c ≤ 17188459119 := by
  have h1 : (roundDiv (c * (Config.nominalInc : Int)) Config.second).natAbs ≤ 8589935 := by
    rw [roundDiv_natAbs, Int.natAbs_mul, Int.natAbs_natCast]
    have h2 : c.natAbs * Config.nominalInc ≤ 500000 * Config.nominalInc := Nat.mul_le_mul_right _ h
    exact half_up_le _ h2
  unfold incOf
  have h4 : (Config.nominalInc : Int) = 17179869184 := by simp [Config.nominalInc]
  generalize roundDiv (c * (Config.nominalInc : Int)) Config.second = r at h1
  rw [h4]
  omega

/-! ## The counter (R1) -/

/-- One addition of INC keeps every field in its range, for any INC below 10^9 ns. -/
theorem TB.advance_ranges (t : TB) (hs : t.sec < Config.secondsWrap) (hn : t.ns < Config.second)
    (hf : t.frac < Config.unit) (hi : t.inc ≤ 17188459119) :
    t.advance.sec < Config.secondsWrap ∧ t.advance.ns < Config.second ∧ t.advance.frac < Config.unit := by
  simp only [Config.secondsWrap, Config.second, Config.unit] at *
  unfold TB.advance
  simp only [Config.secondsWrap, Config.second, Config.unit]
  split_ifs <;> simp only <;> refine ⟨?_, ?_, ?_⟩ <;> omega

theorem TB.advance_inc (t : TB) : t.advance.inc = t.inc := by
  simp only [TB.advance]; split <;> simp only
theorem TB.advance_epoch (t : TB) : t.advance.epoch = t.epoch := by
  simp only [TB.advance]; split <;> simp only
theorem TB.advance_utcOffset (t : TB) : t.advance.utcOffset = t.utcOffset := by
  simp only [TB.advance]; split <;> simp only
theorem TB.advance_demand (t : TB) : t.advance.demand = t.demand := by
  simp only [TB.advance]; split <;> simp only

/-- An instant on the counter lies in the counter's ranges. -/
theorem Instant.ofTotal_ranges (n : Int) :
    (Instant.ofTotal n).sec < Config.secondsWrap ∧ (Instant.ofTotal n).ns < Config.second := by
  unfold Instant.ofTotal
  simp only [Config.secondsWrap, Config.second]
  omega

/-! ## The servo (R5, R6) -/

theorem servo_bounds (st : Steering) (i θ : Int) (hi : i.natAbs ≤ st.limit) :
    (servo st i θ).1.natAbs ≤ st.limit ∧ (servo st i θ).2.natAbs ≤ st.limit := by
  unfold servo
  dsimp only
  have h := clamp_natAbs_le (i + roundDiv θ (2 ^ st.k)) st.limit
  split_ifs with h1 h2
  · exact ⟨h, h1⟩
  · exact ⟨hi, by simp⟩
  · exact ⟨hi, by simp⟩

/-- The draw never leaves the window (R106). -/
theorem drawOffset_le (g : BitVec 32) (w : Nat) : drawOffset g w ≤ w := by
  have h : drawOffset g w < w + 1 := by
    unfold drawOffset
    rw [Nat.div_lt_iff_lt_mul (by decide), Nat.mul_comm (w + 1)]
    exact Nat.mul_lt_mul_of_pos_right g.isLt (by omega)
  omega

/-! ## The generator (R104) -/

theorem genStep_ne_zero {g : BitVec 32} (h : g ≠ 0#32) : genStep g ≠ 0#32 := by
  unfold genStep
  split
  · intro h2
    have h3 := congrArg (fun x : BitVec 32 => x.getLsbD 31) h2
    simp at h3
  · rename_i h1
    intro h2
    apply h
    have h4 : g.toNat / 2 = 0 := by
      have := congrArg BitVec.toNat h2
      simpa [BitVec.toNat_ushiftRight, Nat.shiftRight_eq_div_pow] using this
    have h5 : g.toNat % 2 = 0 := by
      simp [BitVec.getLsbD, Nat.testBit_zero] at h1
      exact h1
    apply BitVec.eq_of_toNat_eq
    simp
    omega

theorem times_keeps {α : Type} {f : α → α} {p : α → Prop} (h : ∀ a, p a → p (f a)) :
    ∀ (n : Nat) (a : α), p a → p (times f n a)
  | 0, _, ha => ha
  | n + 1, a, ha => times_keeps h n (f a) (h a ha)

theorem genDraw_ne_zero {g : BitVec 32} (h : g ≠ 0#32) : genDraw g ≠ 0#32 :=
  times_keeps (p := fun x => x ≠ 0#32) (fun _ => genStep_ne_zero) 32 g h

end Sys2Proof.Machine
end

