-- ==== Sys2Proof/Laws/Frames.lean ====
section
/-!
SUPPORT. The frame of every composite operation: one lemma per operation that says which fields of the
state it leaves as they were, its parts simp rules.
-/

namespace Sys2Proof.Machine

open Sys2Proof

/-! ## Auctions, evidence and discipline -/

@[simp] theorem State.runCallOpen_same (s : State) (g : Fin 64) (n : Nat) (cls : TraceClass) (a b : Bool) :
    (s.runCallOpen g n cls a b).rail33 = s.rail33 ∧ (s.runCallOpen g n cls a b).rail09 = s.rail09
    ∧ (s.runCallOpen g n cls a b).osc = s.osc ∧ (s.runCallOpen g n cls a b).clock = s.clock
    ∧ (s.runCallOpen g n cls a b).tb = s.tb ∧ (s.runCallOpen g n cls a b).du = s.du
    ∧ (s.runCallOpen g n cls a b).lines = s.lines ∧ (s.runCallOpen g n cls a b).att = s.att
    ∧ (s.runCallOpen g n cls a b).ctl = s.ctl ∧ (s.runCallOpen g n cls a b).evt = s.evt
    ∧ (s.runCallOpen g n cls a b).cap = s.cap ∧ (s.runCallOpen g n cls a b).pst = s.pst
    ∧ (s.runCallOpen g n cls a b).prt = s.prt ∧ (s.runCallOpen g n cls a b).ep = s.ep
    ∧ (s.runCallOpen g n cls a b).posted = s.posted ∧ (s.runCallOpen g n cls a b).wire = s.wire
    ∧ (s.runCallOpen g n cls a b).draws = s.draws ∧ (s.runCallOpen g n cls a b).pending = s.pending := by
  generalize ht : s.runCallOpen g n cls a b = t
  unfold State.runCallOpen at ht; try dsimp only at ht
  (repeat' split at ht) <;> subst ht <;> simp

@[simp] theorem State.runWindow_same (s : State) (g : Fin 64) (cls : TraceClass) (a : Bool) :
    (s.runWindow g cls a).rail33 = s.rail33 ∧ (s.runWindow g cls a).rail09 = s.rail09
    ∧ (s.runWindow g cls a).osc = s.osc ∧ (s.runWindow g cls a).clock = s.clock
    ∧ (s.runWindow g cls a).tb = s.tb ∧ (s.runWindow g cls a).du = s.du
    ∧ (s.runWindow g cls a).lines = s.lines ∧ (s.runWindow g cls a).att = s.att
    ∧ (s.runWindow g cls a).ctl = s.ctl ∧ (s.runWindow g cls a).evt = s.evt
    ∧ (s.runWindow g cls a).cap = s.cap ∧ (s.runWindow g cls a).pst = s.pst
    ∧ (s.runWindow g cls a).prt = s.prt ∧ (s.runWindow g cls a).ep = s.ep
    ∧ (s.runWindow g cls a).posted = s.posted ∧ (s.runWindow g cls a).wire = s.wire
    ∧ (s.runWindow g cls a).draws = s.draws ∧ (s.runWindow g cls a).pending = s.pending := by
  generalize ht : s.runWindow g cls a = t
  unfold State.runWindow at ht; try dsimp only at ht
  (repeat' split at ht) <;> subst ht <;> simp

@[simp] theorem State.createClose_same (s : State) (g : Fin 64) (r : Stamp) (cls : TraceClass) (a : Bool) :
    (s.createClose g r cls a).rail33 = s.rail33 ∧ (s.createClose g r cls a).rail09 = s.rail09
    ∧ (s.createClose g r cls a).osc = s.osc ∧ (s.createClose g r cls a).clock = s.clock
    ∧ (s.createClose g r cls a).tb = s.tb ∧ (s.createClose g r cls a).du = s.du
    ∧ (s.createClose g r cls a).lines = s.lines ∧ (s.createClose g r cls a).atu = s.atu
    ∧ (s.createClose g r cls a).att = s.att ∧ (s.createClose g r cls a).ctl = s.ctl
    ∧ (s.createClose g r cls a).evt = s.evt ∧ (s.createClose g r cls a).cap = s.cap
    ∧ (s.createClose g r cls a).pst = s.pst ∧ (s.createClose g r cls a).prt = s.prt
    ∧ (s.createClose g r cls a).ep = s.ep ∧ (s.createClose g r cls a).posted = s.posted
    ∧ (s.createClose g r cls a).wire = s.wire ∧ (s.createClose g r cls a).draws = s.draws
    ∧ (s.createClose g r cls a).pending = s.pending := by
  generalize ht : s.createClose g r cls a = t
  unfold State.createClose at ht; try dsimp only at ht
  (repeat' split at ht) <;> subst ht <;> simp

@[simp] theorem State.runClose_same (s : State) (g : Fin 64) (cls : TraceClass) (a : Bool) :
    (s.runClose g cls a).rail33 = s.rail33 ∧ (s.runClose g cls a).rail09 = s.rail09
    ∧ (s.runClose g cls a).osc = s.osc ∧ (s.runClose g cls a).clock = s.clock
    ∧ (s.runClose g cls a).tb = s.tb ∧ (s.runClose g cls a).du = s.du
    ∧ (s.runClose g cls a).lines = s.lines ∧ (s.runClose g cls a).att = s.att
    ∧ (s.runClose g cls a).ctl = s.ctl ∧ (s.runClose g cls a).evt = s.evt
    ∧ (s.runClose g cls a).cap = s.cap ∧ (s.runClose g cls a).pst = s.pst
    ∧ (s.runClose g cls a).prt = s.prt ∧ (s.runClose g cls a).ep = s.ep
    ∧ (s.runClose g cls a).posted = s.posted ∧ (s.runClose g cls a).wire = s.wire
    ∧ (s.runClose g cls a).draws = s.draws ∧ (s.runClose g cls a).pending = s.pending := by
  generalize ht : s.runClose g cls a = t
  unfold State.runClose at ht; try dsimp only at ht
  (repeat' split at ht) <;> subst ht <;> simp

@[simp] theorem State.runAlarm_same (s : State) (a : Fin 8) (n : Nat) (cls : TraceClass) :
    (s.runAlarm a n cls).rail33 = s.rail33 ∧ (s.runAlarm a n cls).rail09 = s.rail09
    ∧ (s.runAlarm a n cls).osc = s.osc ∧ (s.runAlarm a n cls).clock = s.clock
    ∧ (s.runAlarm a n cls).tb = s.tb ∧ (s.runAlarm a n cls).du = s.du
    ∧ (s.runAlarm a n cls).lines = s.lines ∧ (s.runAlarm a n cls).att = s.att
    ∧ (s.runAlarm a n cls).ctl = s.ctl ∧ (s.runAlarm a n cls).evt = s.evt
    ∧ (s.runAlarm a n cls).cap = s.cap ∧ (s.runAlarm a n cls).pst = s.pst
    ∧ (s.runAlarm a n cls).posted = s.posted ∧ (s.runAlarm a n cls).draws = s.draws
    ∧ (s.runAlarm a n cls).pending = s.pending := by
  generalize ht : s.runAlarm a n cls = t
  unfold State.runAlarm at ht; try dsimp only at ht
  (repeat' split at ht) <;> subst ht <;> simp

@[simp] theorem State.settleGroup_same (s : State) (cls : TraceClass) (g : Fin 64) :
    (State.settleGroup cls s g).rail33 = s.rail33 ∧ (State.settleGroup cls s g).rail09 = s.rail09
    ∧ (State.settleGroup cls s g).osc = s.osc ∧ (State.settleGroup cls s g).clock = s.clock
    ∧ (State.settleGroup cls s g).tb = s.tb ∧ (State.settleGroup cls s g).du = s.du
    ∧ (State.settleGroup cls s g).lines = s.lines ∧ (State.settleGroup cls s g).att = s.att
    ∧ (State.settleGroup cls s g).ctl = s.ctl ∧ (State.settleGroup cls s g).evt = s.evt
    ∧ (State.settleGroup cls s g).cap = s.cap ∧ (State.settleGroup cls s g).pst = s.pst
    ∧ (State.settleGroup cls s g).prt = s.prt ∧ (State.settleGroup cls s g).ep = s.ep
    ∧ (State.settleGroup cls s g).posted = s.posted ∧ (State.settleGroup cls s g).wire = s.wire
    ∧ (State.settleGroup cls s g).draws = s.draws ∧ (State.settleGroup cls s g).pending = s.pending := by
  generalize ht : State.settleGroup cls s g = t
  unfold State.settleGroup at ht; try dsimp only at ht
  (repeat' split at ht) <;> subst ht <;> simp

@[simp] theorem State.settleAlarm_same (s : State) (cls : TraceClass) (a : Fin 8) :
    (State.settleAlarm cls s a).rail33 = s.rail33 ∧ (State.settleAlarm cls s a).rail09 = s.rail09
    ∧ (State.settleAlarm cls s a).osc = s.osc ∧ (State.settleAlarm cls s a).clock = s.clock
    ∧ (State.settleAlarm cls s a).tb = s.tb ∧ (State.settleAlarm cls s a).du = s.du
    ∧ (State.settleAlarm cls s a).lines = s.lines ∧ (State.settleAlarm cls s a).att = s.att
    ∧ (State.settleAlarm cls s a).ctl = s.ctl ∧ (State.settleAlarm cls s a).evt = s.evt
    ∧ (State.settleAlarm cls s a).cap = s.cap ∧ (State.settleAlarm cls s a).pst = s.pst
    ∧ (State.settleAlarm cls s a).posted = s.posted ∧ (State.settleAlarm cls s a).draws = s.draws
    ∧ (State.settleAlarm cls s a).pending = s.pending := by
  generalize ht : State.settleAlarm cls s a = t
  unfold State.settleAlarm at ht; try dsimp only at ht
  (repeat' split at ht) <;> subst ht <;> simp

@[simp] theorem State.foldSettleGroup_same (s : State) (cls : TraceClass) (l : List (Fin 64)) :
    (l.foldl (State.settleGroup cls) s).rail33 = s.rail33
    ∧ (l.foldl (State.settleGroup cls) s).rail09 = s.rail09
    ∧ (l.foldl (State.settleGroup cls) s).osc = s.osc
    ∧ (l.foldl (State.settleGroup cls) s).clock = s.clock
    ∧ (l.foldl (State.settleGroup cls) s).tb = s.tb ∧ (l.foldl (State.settleGroup cls) s).du = s.du
    ∧ (l.foldl (State.settleGroup cls) s).lines = s.lines
    ∧ (l.foldl (State.settleGroup cls) s).att = s.att
    ∧ (l.foldl (State.settleGroup cls) s).ctl = s.ctl
    ∧ (l.foldl (State.settleGroup cls) s).evt = s.evt
    ∧ (l.foldl (State.settleGroup cls) s).cap = s.cap
    ∧ (l.foldl (State.settleGroup cls) s).pst = s.pst
    ∧ (l.foldl (State.settleGroup cls) s).prt = s.prt
    ∧ (l.foldl (State.settleGroup cls) s).ep = s.ep
    ∧ (l.foldl (State.settleGroup cls) s).posted = s.posted
    ∧ (l.foldl (State.settleGroup cls) s).wire = s.wire
    ∧ (l.foldl (State.settleGroup cls) s).draws = s.draws
    ∧ (l.foldl (State.settleGroup cls) s).pending = s.pending := by
  induction l generalizing s with
  | nil => simp
  | cons a l ih => simp only [List.foldl_cons]; have h := ih (State.settleGroup cls s a); simp_all [State.settleGroup_same]

@[simp] theorem State.foldSettleAlarm_same (s : State) (cls : TraceClass) (l : List (Fin 8)) :
    (l.foldl (State.settleAlarm cls) s).rail33 = s.rail33
    ∧ (l.foldl (State.settleAlarm cls) s).rail09 = s.rail09
    ∧ (l.foldl (State.settleAlarm cls) s).osc = s.osc
    ∧ (l.foldl (State.settleAlarm cls) s).clock = s.clock
    ∧ (l.foldl (State.settleAlarm cls) s).tb = s.tb ∧ (l.foldl (State.settleAlarm cls) s).du = s.du
    ∧ (l.foldl (State.settleAlarm cls) s).lines = s.lines
    ∧ (l.foldl (State.settleAlarm cls) s).att = s.att
    ∧ (l.foldl (State.settleAlarm cls) s).ctl = s.ctl
    ∧ (l.foldl (State.settleAlarm cls) s).evt = s.evt
    ∧ (l.foldl (State.settleAlarm cls) s).cap = s.cap
    ∧ (l.foldl (State.settleAlarm cls) s).pst = s.pst
    ∧ (l.foldl (State.settleAlarm cls) s).posted = s.posted
    ∧ (l.foldl (State.settleAlarm cls) s).draws = s.draws
    ∧ (l.foldl (State.settleAlarm cls) s).pending = s.pending := by
  induction l generalizing s with
  | nil => simp
  | cons a l ih => simp only [List.foldl_cons]; have h := ih (State.settleAlarm cls s a); simp_all [State.settleAlarm_same]

@[simp] theorem State.settleTimers_same (s : State) (cls : TraceClass) :
    (s.settleTimers cls).rail33 = s.rail33 ∧ (s.settleTimers cls).rail09 = s.rail09
    ∧ (s.settleTimers cls).osc = s.osc ∧ (s.settleTimers cls).clock = s.clock
    ∧ (s.settleTimers cls).tb = s.tb ∧ (s.settleTimers cls).du = s.du
    ∧ (s.settleTimers cls).lines = s.lines ∧ (s.settleTimers cls).att = s.att
    ∧ (s.settleTimers cls).ctl = s.ctl ∧ (s.settleTimers cls).evt = s.evt
    ∧ (s.settleTimers cls).cap = s.cap ∧ (s.settleTimers cls).pst = s.pst
    ∧ (s.settleTimers cls).posted = s.posted ∧ (s.settleTimers cls).draws = s.draws
    ∧ (s.settleTimers cls).pending = s.pending := by
  generalize ht : s.settleTimers cls = t
  unfold State.settleTimers at ht; try dsimp only at ht
  (repeat' split at ht) <;> subst ht <;> simp

@[simp] theorem State.passGroup_same (s : State) (g : Fin 64) (pre post : Instant) :
    (State.passGroup pre post s g).rail33 = s.rail33
    ∧ (State.passGroup pre post s g).rail09 = s.rail09 ∧ (State.passGroup pre post s g).osc = s.osc
    ∧ (State.passGroup pre post s g).clock = s.clock ∧ (State.passGroup pre post s g).tb = s.tb
    ∧ (State.passGroup pre post s g).du = s.du ∧ (State.passGroup pre post s g).lines = s.lines
    ∧ (State.passGroup pre post s g).att = s.att ∧ (State.passGroup pre post s g).ctl = s.ctl
    ∧ (State.passGroup pre post s g).evt = s.evt ∧ (State.passGroup pre post s g).cap = s.cap
    ∧ (State.passGroup pre post s g).pst = s.pst ∧ (State.passGroup pre post s g).prt = s.prt
    ∧ (State.passGroup pre post s g).ep = s.ep ∧ (State.passGroup pre post s g).posted = s.posted
    ∧ (State.passGroup pre post s g).wire = s.wire ∧ (State.passGroup pre post s g).draws = s.draws
    ∧ (State.passGroup pre post s g).pending = s.pending := by
  generalize ht : State.passGroup pre post s g = t
  unfold State.passGroup at ht; try dsimp only at ht
  (repeat' split at ht) <;> subst ht <;> simp

@[simp] theorem State.passAlarm_same (s : State) (a : Fin 8) (pre post : Instant) :
    (State.passAlarm pre post s a).rail33 = s.rail33
    ∧ (State.passAlarm pre post s a).rail09 = s.rail09 ∧ (State.passAlarm pre post s a).osc = s.osc
    ∧ (State.passAlarm pre post s a).clock = s.clock ∧ (State.passAlarm pre post s a).tb = s.tb
    ∧ (State.passAlarm pre post s a).du = s.du ∧ (State.passAlarm pre post s a).lines = s.lines
    ∧ (State.passAlarm pre post s a).att = s.att ∧ (State.passAlarm pre post s a).ctl = s.ctl
    ∧ (State.passAlarm pre post s a).evt = s.evt ∧ (State.passAlarm pre post s a).cap = s.cap
    ∧ (State.passAlarm pre post s a).pst = s.pst ∧ (State.passAlarm pre post s a).posted = s.posted
    ∧ (State.passAlarm pre post s a).draws = s.draws
    ∧ (State.passAlarm pre post s a).pending = s.pending := by
  generalize ht : State.passAlarm pre post s a = t
  unfold State.passAlarm at ht; try dsimp only at ht
  (repeat' split at ht) <;> subst ht <;> simp

@[simp] theorem State.foldPassGroup_same (s : State) (pre post : Instant) (l : List (Fin 64)) :
    (l.foldl (State.passGroup pre post) s).rail33 = s.rail33
    ∧ (l.foldl (State.passGroup pre post) s).rail09 = s.rail09
    ∧ (l.foldl (State.passGroup pre post) s).osc = s.osc
    ∧ (l.foldl (State.passGroup pre post) s).clock = s.clock
    ∧ (l.foldl (State.passGroup pre post) s).tb = s.tb
    ∧ (l.foldl (State.passGroup pre post) s).du = s.du
    ∧ (l.foldl (State.passGroup pre post) s).lines = s.lines
    ∧ (l.foldl (State.passGroup pre post) s).att = s.att
    ∧ (l.foldl (State.passGroup pre post) s).ctl = s.ctl
    ∧ (l.foldl (State.passGroup pre post) s).evt = s.evt
    ∧ (l.foldl (State.passGroup pre post) s).cap = s.cap
    ∧ (l.foldl (State.passGroup pre post) s).pst = s.pst
    ∧ (l.foldl (State.passGroup pre post) s).prt = s.prt
    ∧ (l.foldl (State.passGroup pre post) s).ep = s.ep
    ∧ (l.foldl (State.passGroup pre post) s).posted = s.posted
    ∧ (l.foldl (State.passGroup pre post) s).wire = s.wire
    ∧ (l.foldl (State.passGroup pre post) s).draws = s.draws
    ∧ (l.foldl (State.passGroup pre post) s).pending = s.pending := by
  induction l generalizing s with
  | nil => simp
  | cons a l ih => simp only [List.foldl_cons]; have h := ih (State.passGroup pre post s a); simp_all [State.passGroup_same]

@[simp] theorem State.foldPassAlarm_same (s : State) (pre post : Instant) (l : List (Fin 8)) :
    (l.foldl (State.passAlarm pre post) s).rail33 = s.rail33
    ∧ (l.foldl (State.passAlarm pre post) s).rail09 = s.rail09
    ∧ (l.foldl (State.passAlarm pre post) s).osc = s.osc
    ∧ (l.foldl (State.passAlarm pre post) s).clock = s.clock
    ∧ (l.foldl (State.passAlarm pre post) s).tb = s.tb
    ∧ (l.foldl (State.passAlarm pre post) s).du = s.du
    ∧ (l.foldl (State.passAlarm pre post) s).lines = s.lines
    ∧ (l.foldl (State.passAlarm pre post) s).att = s.att
    ∧ (l.foldl (State.passAlarm pre post) s).ctl = s.ctl
    ∧ (l.foldl (State.passAlarm pre post) s).evt = s.evt
    ∧ (l.foldl (State.passAlarm pre post) s).cap = s.cap
    ∧ (l.foldl (State.passAlarm pre post) s).pst = s.pst
    ∧ (l.foldl (State.passAlarm pre post) s).posted = s.posted
    ∧ (l.foldl (State.passAlarm pre post) s).draws = s.draws
    ∧ (l.foldl (State.passAlarm pre post) s).pending = s.pending := by
  induction l generalizing s with
  | nil => simp
  | cons a l ih => simp only [List.foldl_cons]; have h := ih (State.passAlarm pre post s a); simp_all [State.passAlarm_same]

@[simp] theorem State.passTimers_same (s : State) (pre post : Instant) :
    (s.passTimers pre post).rail33 = s.rail33 ∧ (s.passTimers pre post).rail09 = s.rail09
    ∧ (s.passTimers pre post).osc = s.osc ∧ (s.passTimers pre post).clock = s.clock
    ∧ (s.passTimers pre post).tb = s.tb ∧ (s.passTimers pre post).du = s.du
    ∧ (s.passTimers pre post).lines = s.lines ∧ (s.passTimers pre post).att = s.att
    ∧ (s.passTimers pre post).ctl = s.ctl ∧ (s.passTimers pre post).evt = s.evt
    ∧ (s.passTimers pre post).cap = s.cap ∧ (s.passTimers pre post).pst = s.pst
    ∧ (s.passTimers pre post).posted = s.posted ∧ (s.passTimers pre post).draws = s.draws
    ∧ (s.passTimers pre post).pending = s.pending := by
  generalize ht : s.passTimers pre post = t
  unfold State.passTimers at ht; try dsimp only at ht
  (repeat' split at ht) <;> subst ht <;> simp

@[simp] theorem State.abandonGroup_same (s : State) (g : Fin 64) (pre : Stamp) (cls : TraceClass) :
    (State.abandonGroup pre cls s g).rail33 = s.rail33
    ∧ (State.abandonGroup pre cls s g).rail09 = s.rail09
    ∧ (State.abandonGroup pre cls s g).osc = s.osc
    ∧ (State.abandonGroup pre cls s g).clock = s.clock ∧ (State.abandonGroup pre cls s g).tb = s.tb
    ∧ (State.abandonGroup pre cls s g).du = s.du ∧ (State.abandonGroup pre cls s g).lines = s.lines
    ∧ (State.abandonGroup pre cls s g).att = s.att ∧ (State.abandonGroup pre cls s g).ctl = s.ctl
    ∧ (State.abandonGroup pre cls s g).evt = s.evt ∧ (State.abandonGroup pre cls s g).cap = s.cap
    ∧ (State.abandonGroup pre cls s g).pst = s.pst ∧ (State.abandonGroup pre cls s g).prt = s.prt
    ∧ (State.abandonGroup pre cls s g).ep = s.ep
    ∧ (State.abandonGroup pre cls s g).posted = s.posted
    ∧ (State.abandonGroup pre cls s g).wire = s.wire
    ∧ (State.abandonGroup pre cls s g).draws = s.draws
    ∧ (State.abandonGroup pre cls s g).pending = s.pending := by
  generalize ht : State.abandonGroup pre cls s g = t
  unfold State.abandonGroup at ht; try dsimp only at ht
  (repeat' split at ht) <;> subst ht <;> simp

@[simp] theorem State.foldAbandon_same (s : State) (pre : Stamp) (cls : TraceClass) (l : List (Fin 64)) :
    (l.foldl (State.abandonGroup pre cls) s).rail33 = s.rail33
    ∧ (l.foldl (State.abandonGroup pre cls) s).rail09 = s.rail09
    ∧ (l.foldl (State.abandonGroup pre cls) s).osc = s.osc
    ∧ (l.foldl (State.abandonGroup pre cls) s).clock = s.clock
    ∧ (l.foldl (State.abandonGroup pre cls) s).tb = s.tb
    ∧ (l.foldl (State.abandonGroup pre cls) s).du = s.du
    ∧ (l.foldl (State.abandonGroup pre cls) s).lines = s.lines
    ∧ (l.foldl (State.abandonGroup pre cls) s).att = s.att
    ∧ (l.foldl (State.abandonGroup pre cls) s).ctl = s.ctl
    ∧ (l.foldl (State.abandonGroup pre cls) s).evt = s.evt
    ∧ (l.foldl (State.abandonGroup pre cls) s).cap = s.cap
    ∧ (l.foldl (State.abandonGroup pre cls) s).pst = s.pst
    ∧ (l.foldl (State.abandonGroup pre cls) s).prt = s.prt
    ∧ (l.foldl (State.abandonGroup pre cls) s).ep = s.ep
    ∧ (l.foldl (State.abandonGroup pre cls) s).posted = s.posted
    ∧ (l.foldl (State.abandonGroup pre cls) s).wire = s.wire
    ∧ (l.foldl (State.abandonGroup pre cls) s).draws = s.draws
    ∧ (l.foldl (State.abandonGroup pre cls) s).pending = s.pending := by
  induction l generalizing s with
  | nil => simp
  | cons a l ih => simp only [List.foldl_cons]; have h := ih (State.abandonGroup pre cls s a); simp_all [State.abandonGroup_same]

@[simp] theorem State.abandonRunning_same (s : State) (pre : Stamp) (cls : TraceClass) :
    (s.abandonRunning pre cls).rail33 = s.rail33 ∧ (s.abandonRunning pre cls).rail09 = s.rail09
    ∧ (s.abandonRunning pre cls).osc = s.osc ∧ (s.abandonRunning pre cls).clock = s.clock
    ∧ (s.abandonRunning pre cls).tb = s.tb ∧ (s.abandonRunning pre cls).du = s.du
    ∧ (s.abandonRunning pre cls).lines = s.lines ∧ (s.abandonRunning pre cls).att = s.att
    ∧ (s.abandonRunning pre cls).ctl = s.ctl ∧ (s.abandonRunning pre cls).evt = s.evt
    ∧ (s.abandonRunning pre cls).cap = s.cap ∧ (s.abandonRunning pre cls).pst = s.pst
    ∧ (s.abandonRunning pre cls).prt = s.prt ∧ (s.abandonRunning pre cls).ep = s.ep
    ∧ (s.abandonRunning pre cls).posted = s.posted ∧ (s.abandonRunning pre cls).wire = s.wire
    ∧ (s.abandonRunning pre cls).draws = s.draws ∧ (s.abandonRunning pre cls).pending = s.pending := by
  generalize ht : s.abandonRunning pre cls = t
  unfold State.abandonRunning at ht; try dsimp only at ht
  (repeat' split at ht) <;> subst ht <;> simp

@[simp] theorem State.resetAbandon_same (s : State) (old : ATU) (g : Fin 64) :
    (State.resetAbandon old s g).rail33 = s.rail33 ∧ (State.resetAbandon old s g).rail09 = s.rail09
    ∧ (State.resetAbandon old s g).osc = s.osc ∧ (State.resetAbandon old s g).clock = s.clock
    ∧ (State.resetAbandon old s g).tb = s.tb ∧ (State.resetAbandon old s g).du = s.du
    ∧ (State.resetAbandon old s g).lines = s.lines ∧ (State.resetAbandon old s g).atu = s.atu
    ∧ (State.resetAbandon old s g).att = s.att ∧ (State.resetAbandon old s g).ctl = s.ctl
    ∧ (State.resetAbandon old s g).evt = s.evt ∧ (State.resetAbandon old s g).cap = s.cap
    ∧ (State.resetAbandon old s g).pst = s.pst ∧ (State.resetAbandon old s g).prt = s.prt
    ∧ (State.resetAbandon old s g).ep = s.ep ∧ (State.resetAbandon old s g).posted = s.posted
    ∧ (State.resetAbandon old s g).wire = s.wire ∧ (State.resetAbandon old s g).draws = s.draws
    ∧ (State.resetAbandon old s g).pending = s.pending := by
  generalize ht : State.resetAbandon old s g = t
  unfold State.resetAbandon at ht; try dsimp only at ht
  (repeat' split at ht) <;> subst ht <;> simp

@[simp] theorem State.foldResetAbandon_same (s : State) (old : ATU) (l : List (Fin 64)) :
    (l.foldl (State.resetAbandon old) s).rail33 = s.rail33
    ∧ (l.foldl (State.resetAbandon old) s).rail09 = s.rail09
    ∧ (l.foldl (State.resetAbandon old) s).osc = s.osc
    ∧ (l.foldl (State.resetAbandon old) s).clock = s.clock
    ∧ (l.foldl (State.resetAbandon old) s).tb = s.tb
    ∧ (l.foldl (State.resetAbandon old) s).du = s.du
    ∧ (l.foldl (State.resetAbandon old) s).lines = s.lines
    ∧ (l.foldl (State.resetAbandon old) s).atu = s.atu
    ∧ (l.foldl (State.resetAbandon old) s).att = s.att
    ∧ (l.foldl (State.resetAbandon old) s).ctl = s.ctl
    ∧ (l.foldl (State.resetAbandon old) s).evt = s.evt
    ∧ (l.foldl (State.resetAbandon old) s).cap = s.cap
    ∧ (l.foldl (State.resetAbandon old) s).pst = s.pst
    ∧ (l.foldl (State.resetAbandon old) s).prt = s.prt
    ∧ (l.foldl (State.resetAbandon old) s).ep = s.ep
    ∧ (l.foldl (State.resetAbandon old) s).posted = s.posted
    ∧ (l.foldl (State.resetAbandon old) s).wire = s.wire
    ∧ (l.foldl (State.resetAbandon old) s).draws = s.draws
    ∧ (l.foldl (State.resetAbandon old) s).pending = s.pending := by
  induction l generalizing s with
  | nil => simp
  | cons a l ih => simp only [List.foldl_cons]; have h := ih (State.resetAbandon old s a); simp_all [State.resetAbandon_same]

@[simp] theorem State.armWindow_same (s : State) (g : Fin 64) :
    (s.armWindow g).rail33 = s.rail33 ∧ (s.armWindow g).rail09 = s.rail09
    ∧ (s.armWindow g).osc = s.osc ∧ (s.armWindow g).clock = s.clock ∧ (s.armWindow g).tb = s.tb
    ∧ (s.armWindow g).du = s.du ∧ (s.armWindow g).lines = s.lines ∧ (s.armWindow g).att = s.att
    ∧ (s.armWindow g).ctl = s.ctl ∧ (s.armWindow g).evt = s.evt ∧ (s.armWindow g).cap = s.cap
    ∧ (s.armWindow g).pst = s.pst ∧ (s.armWindow g).prt = s.prt ∧ (s.armWindow g).ep = s.ep
    ∧ (s.armWindow g).posted = s.posted ∧ (s.armWindow g).wire = s.wire
    ∧ (s.armWindow g).draws = s.draws ∧ (s.armWindow g).pending = s.pending := by
  generalize ht : s.armWindow g = t
  unfold State.armWindow at ht; try dsimp only at ht
  (repeat' split at ht) <;> subst ht <;> simp

@[simp] theorem State.extendGroup_same (s : State) (g : Fin 64) (t : Stamp) :
    (s.extendGroup g t).rail33 = s.rail33 ∧ (s.extendGroup g t).rail09 = s.rail09
    ∧ (s.extendGroup g t).osc = s.osc ∧ (s.extendGroup g t).clock = s.clock
    ∧ (s.extendGroup g t).tb = s.tb ∧ (s.extendGroup g t).du = s.du
    ∧ (s.extendGroup g t).lines = s.lines ∧ (s.extendGroup g t).att = s.att
    ∧ (s.extendGroup g t).ctl = s.ctl ∧ (s.extendGroup g t).evt = s.evt
    ∧ (s.extendGroup g t).cap = s.cap ∧ (s.extendGroup g t).pst = s.pst
    ∧ (s.extendGroup g t).prt = s.prt ∧ (s.extendGroup g t).ep = s.ep
    ∧ (s.extendGroup g t).posted = s.posted ∧ (s.extendGroup g t).wire = s.wire
    ∧ (s.extendGroup g t).draws = s.draws ∧ (s.extendGroup g t).pending = s.pending := by
  generalize ht : s.extendGroup g t = t
  unfold State.extendGroup at ht; try dsimp only at ht
  (repeat' split at ht) <;> subst ht <;> simp

@[simp] theorem State.releaseExtend_same (s : State) (n : Nat) (t : Stamp) :
    ((s.releaseExtend n t).1).rail33 = s.rail33 ∧ ((s.releaseExtend n t).1).rail09 = s.rail09
    ∧ ((s.releaseExtend n t).1).osc = s.osc ∧ ((s.releaseExtend n t).1).clock = s.clock
    ∧ ((s.releaseExtend n t).1).tb = s.tb ∧ ((s.releaseExtend n t).1).du = s.du
    ∧ ((s.releaseExtend n t).1).lines = s.lines ∧ ((s.releaseExtend n t).1).att = s.att
    ∧ ((s.releaseExtend n t).1).ctl = s.ctl ∧ ((s.releaseExtend n t).1).evt = s.evt
    ∧ ((s.releaseExtend n t).1).cap = s.cap ∧ ((s.releaseExtend n t).1).pst = s.pst
    ∧ ((s.releaseExtend n t).1).prt = s.prt ∧ ((s.releaseExtend n t).1).ep = s.ep
    ∧ ((s.releaseExtend n t).1).posted = s.posted ∧ ((s.releaseExtend n t).1).wire = s.wire
    ∧ ((s.releaseExtend n t).1).draws = s.draws ∧ ((s.releaseExtend n t).1).pending = s.pending := by
  generalize ht : (s.releaseExtend n t).1 = t
  unfold State.releaseExtend at ht; try dsimp only at ht
  (repeat' split at ht) <;> subst ht <;> simp

@[simp] theorem State.releaseAbandon_same (s : State) (n : Nat) :
    ((s.releaseAbandon n).1).rail33 = s.rail33 ∧ ((s.releaseAbandon n).1).rail09 = s.rail09
    ∧ ((s.releaseAbandon n).1).osc = s.osc ∧ ((s.releaseAbandon n).1).clock = s.clock
    ∧ ((s.releaseAbandon n).1).tb = s.tb ∧ ((s.releaseAbandon n).1).du = s.du
    ∧ ((s.releaseAbandon n).1).lines = s.lines ∧ ((s.releaseAbandon n).1).att = s.att
    ∧ ((s.releaseAbandon n).1).ctl = s.ctl ∧ ((s.releaseAbandon n).1).evt = s.evt
    ∧ ((s.releaseAbandon n).1).cap = s.cap ∧ ((s.releaseAbandon n).1).pst = s.pst
    ∧ ((s.releaseAbandon n).1).prt = s.prt ∧ ((s.releaseAbandon n).1).ep = s.ep
    ∧ ((s.releaseAbandon n).1).posted = s.posted ∧ ((s.releaseAbandon n).1).wire = s.wire
    ∧ ((s.releaseAbandon n).1).draws = s.draws ∧ ((s.releaseAbandon n).1).pending = s.pending := by
  generalize ht : (s.releaseAbandon n).1 = t
  unfold State.releaseAbandon at ht; try dsimp only at ht
  (repeat' split at ht) <;> subst ht <;> simp

@[simp] theorem State.drawWindow_same (s : State) (g : Fin 64) (n : Nat) :
    ((s.drawWindow g n).1).rail33 = s.rail33 ∧ ((s.drawWindow g n).1).rail09 = s.rail09
    ∧ ((s.drawWindow g n).1).osc = s.osc ∧ ((s.drawWindow g n).1).clock = s.clock
    ∧ ((s.drawWindow g n).1).tb = s.tb ∧ ((s.drawWindow g n).1).du = s.du
    ∧ ((s.drawWindow g n).1).lines = s.lines ∧ ((s.drawWindow g n).1).att = s.att
    ∧ ((s.drawWindow g n).1).ctl = s.ctl ∧ ((s.drawWindow g n).1).evt = s.evt
    ∧ ((s.drawWindow g n).1).cap = s.cap ∧ ((s.drawWindow g n).1).pst = s.pst
    ∧ ((s.drawWindow g n).1).prt = s.prt ∧ ((s.drawWindow g n).1).ep = s.ep
    ∧ ((s.drawWindow g n).1).posted = s.posted ∧ ((s.drawWindow g n).1).wire = s.wire
    ∧ ((s.drawWindow g n).1).draws = s.draws ∧ ((s.drawWindow g n).1).pending = s.pending := by
  generalize ht : (s.drawWindow g n).1 = t
  unfold State.drawWindow at ht; try dsimp only at ht
  (repeat' split at ht) <;> subst ht <;> simp

@[simp] theorem State.phaseTag_same (s : State) (n : Nat) :
    ((s.phaseTag n).1).rail33 = s.rail33 ∧ ((s.phaseTag n).1).rail09 = s.rail09
    ∧ ((s.phaseTag n).1).osc = s.osc ∧ ((s.phaseTag n).1).clock = s.clock
    ∧ ((s.phaseTag n).1).tb = s.tb ∧ ((s.phaseTag n).1).du = s.du
    ∧ ((s.phaseTag n).1).lines = s.lines ∧ ((s.phaseTag n).1).sqm = s.sqm
    ∧ ((s.phaseTag n).1).att = s.att ∧ ((s.phaseTag n).1).ctl = s.ctl
    ∧ ((s.phaseTag n).1).evt = s.evt ∧ ((s.phaseTag n).1).cap = s.cap
    ∧ ((s.phaseTag n).1).pst = s.pst ∧ ((s.phaseTag n).1).prt = s.prt ∧ ((s.phaseTag n).1).ep = s.ep
    ∧ ((s.phaseTag n).1).posted = s.posted ∧ ((s.phaseTag n).1).wire = s.wire
    ∧ ((s.phaseTag n).1).draws = s.draws ∧ ((s.phaseTag n).1).pending = s.pending := by
  generalize ht : (s.phaseTag n).1 = t
  unfold State.phaseTag at ht; try dsimp only at ht
  (repeat' split at ht) <;> subst ht <;> simp

@[simp] theorem State.releaseGroup_same (s : State) (g : Fin 64) (b : Body) :
    (s.releaseGroup g b).rail33 = s.rail33 ∧ (s.releaseGroup g b).rail09 = s.rail09
    ∧ (s.releaseGroup g b).osc = s.osc ∧ (s.releaseGroup g b).clock = s.clock
    ∧ (s.releaseGroup g b).tb = s.tb ∧ (s.releaseGroup g b).du = s.du
    ∧ (s.releaseGroup g b).lines = s.lines ∧ (s.releaseGroup g b).sqm = s.sqm
    ∧ (s.releaseGroup g b).att = s.att ∧ (s.releaseGroup g b).ctl = s.ctl
    ∧ (s.releaseGroup g b).evt = s.evt ∧ (s.releaseGroup g b).cap = s.cap
    ∧ (s.releaseGroup g b).pst = s.pst ∧ (s.releaseGroup g b).posted = s.posted
    ∧ (s.releaseGroup g b).draws = s.draws ∧ (s.releaseGroup g b).pending = s.pending := by
  generalize ht : s.releaseGroup g b = t
  unfold State.releaseGroup at ht; try dsimp only at ht
  (repeat' split at ht) <;> subst ht <;> simp

@[simp] theorem State.judgeSecond_same (s : State) :
    (s.judgeSecond).rail33 = s.rail33 ∧ (s.judgeSecond).rail09 = s.rail09
    ∧ (s.judgeSecond).osc = s.osc ∧ (s.judgeSecond).tb = s.tb ∧ (s.judgeSecond).du = s.du
    ∧ (s.judgeSecond).lines = s.lines ∧ (s.judgeSecond).sqm = s.sqm ∧ (s.judgeSecond).atu = s.atu
    ∧ (s.judgeSecond).ctl = s.ctl ∧ (s.judgeSecond).evt = s.evt ∧ (s.judgeSecond).cap = s.cap
    ∧ (s.judgeSecond).pst = s.pst ∧ (s.judgeSecond).prt = s.prt ∧ (s.judgeSecond).ep = s.ep
    ∧ (s.judgeSecond).posted = s.posted ∧ (s.judgeSecond).wire = s.wire
    ∧ (s.judgeSecond).draws = s.draws ∧ (s.judgeSecond).pending = s.pending := by
  generalize ht : s.judgeSecond = t
  unfold State.judgeSecond at ht; try dsimp only at ht
  (repeat' split at ht) <;> subst ht <;> simp

@[simp] theorem State.settleJudge_same (s : State) :
    (s.settleJudge).rail33 = s.rail33 ∧ (s.settleJudge).rail09 = s.rail09
    ∧ (s.settleJudge).osc = s.osc ∧ (s.settleJudge).tb = s.tb ∧ (s.settleJudge).du = s.du
    ∧ (s.settleJudge).lines = s.lines ∧ (s.settleJudge).sqm = s.sqm ∧ (s.settleJudge).atu = s.atu
    ∧ (s.settleJudge).ctl = s.ctl ∧ (s.settleJudge).evt = s.evt ∧ (s.settleJudge).cap = s.cap
    ∧ (s.settleJudge).pst = s.pst ∧ (s.settleJudge).prt = s.prt ∧ (s.settleJudge).ep = s.ep
    ∧ (s.settleJudge).posted = s.posted ∧ (s.settleJudge).wire = s.wire
    ∧ (s.settleJudge).draws = s.draws ∧ (s.settleJudge).pending = s.pending := by
  generalize ht : s.settleJudge = t
  unfold State.settleJudge at ht; try dsimp only at ht
  (repeat' split at ht) <;> subst ht <;> simp

@[simp] theorem State.emitBoundary_same (s : State) (v : State) :
    (s.emitBoundary v).rail33 = s.rail33 ∧ (s.emitBoundary v).rail09 = s.rail09
    ∧ (s.emitBoundary v).osc = s.osc ∧ (s.emitBoundary v).clock = s.clock
    ∧ (s.emitBoundary v).tb = s.tb ∧ (s.emitBoundary v).du = s.du ∧ (s.emitBoundary v).atu = s.atu
    ∧ (s.emitBoundary v).ctl = s.ctl ∧ (s.emitBoundary v).evt = s.evt
    ∧ (s.emitBoundary v).cap = s.cap ∧ (s.emitBoundary v).pst = s.pst
    ∧ (s.emitBoundary v).prt = s.prt ∧ (s.emitBoundary v).ep = s.ep
    ∧ (s.emitBoundary v).posted = s.posted ∧ (s.emitBoundary v).wire = s.wire
    ∧ (s.emitBoundary v).draws = s.draws ∧ (s.emitBoundary v).pending = s.pending := by
  generalize ht : s.emitBoundary v = t
  unfold State.emitBoundary at ht; try dsimp only at ht
  (repeat' split at ht) <;> subst ht <;> simp

@[simp] theorem State.recognizeEdge_same (s : State) (k : CheckInput) (now : Stamp) :
    (s.recognizeEdge k now).rail33 = s.rail33 ∧ (s.recognizeEdge k now).rail09 = s.rail09
    ∧ (s.recognizeEdge k now).osc = s.osc ∧ (s.recognizeEdge k now).tb = s.tb
    ∧ (s.recognizeEdge k now).du = s.du ∧ (s.recognizeEdge k now).lines = s.lines
    ∧ (s.recognizeEdge k now).sqm = s.sqm ∧ (s.recognizeEdge k now).atu = s.atu
    ∧ (s.recognizeEdge k now).ctl = s.ctl ∧ (s.recognizeEdge k now).evt = s.evt
    ∧ (s.recognizeEdge k now).cap = s.cap ∧ (s.recognizeEdge k now).pst = s.pst
    ∧ (s.recognizeEdge k now).posted = s.posted ∧ (s.recognizeEdge k now).draws = s.draws
    ∧ (s.recognizeEdge k now).pending = s.pending := by
  generalize ht : s.recognizeEdge k now = t
  unfold State.recognizeEdge at ht; try dsimp only at ht
  (repeat' split at ht) <;> subst ht <;> simp

@[simp] theorem State.settleAdvance_same (s : State) (v : State) :
    (s.settleAdvance v).rail33 = s.rail33 ∧ (s.settleAdvance v).rail09 = s.rail09
    ∧ (s.settleAdvance v).osc = s.osc ∧ (s.settleAdvance v).tb = s.tb
    ∧ (s.settleAdvance v).du = s.du ∧ (s.settleAdvance v).atu = s.atu
    ∧ (s.settleAdvance v).ctl = s.ctl ∧ (s.settleAdvance v).evt = s.evt
    ∧ (s.settleAdvance v).cap = s.cap ∧ (s.settleAdvance v).pst = s.pst
    ∧ (s.settleAdvance v).prt = s.prt ∧ (s.settleAdvance v).ep = s.ep
    ∧ (s.settleAdvance v).posted = s.posted ∧ (s.settleAdvance v).wire = s.wire
    ∧ (s.settleAdvance v).draws = s.draws ∧ (s.settleAdvance v).pending = s.pending := by
  generalize ht : s.settleAdvance v = t
  unfold State.settleAdvance at ht; try dsimp only at ht
  (repeat' split at ht) <;> subst ht <;> simp

@[simp] theorem State.afterMove_same (s : State) (pre post : Instant) (d : Int) :
    (s.afterMove pre post d).rail33 = s.rail33 ∧ (s.afterMove pre post d).rail09 = s.rail09
    ∧ (s.afterMove pre post d).osc = s.osc ∧ (s.afterMove pre post d).clock = s.clock
    ∧ (s.afterMove pre post d).tb = s.tb ∧ (s.afterMove pre post d).du = s.du
    ∧ (s.afterMove pre post d).lines = s.lines ∧ (s.afterMove pre post d).ctl = s.ctl
    ∧ (s.afterMove pre post d).evt = s.evt ∧ (s.afterMove pre post d).cap = s.cap
    ∧ (s.afterMove pre post d).pst = s.pst ∧ (s.afterMove pre post d).posted = s.posted
    ∧ (s.afterMove pre post d).draws = s.draws ∧ (s.afterMove pre post d).pending = s.pending := by
  generalize ht : s.afterMove pre post d = t
  unfold State.afterMove at ht; try dsimp only at ht
  (repeat' split at ht) <;> subst ht <;> simp

@[simp] theorem State.recordMove_same (s : State) (pre : Stamp) (cls : TraceClass) (θ : Int) (m : Option Stamp) (b : ClockBody) :
    (s.recordMove pre cls θ m b).rail33 = s.rail33 ∧ (s.recordMove pre cls θ m b).rail09 = s.rail09
    ∧ (s.recordMove pre cls θ m b).osc = s.osc ∧ (s.recordMove pre cls θ m b).clock = s.clock
    ∧ (s.recordMove pre cls θ m b).tb = s.tb ∧ (s.recordMove pre cls θ m b).du = s.du
    ∧ (s.recordMove pre cls θ m b).lines = s.lines ∧ (s.recordMove pre cls θ m b).atu = s.atu
    ∧ (s.recordMove pre cls θ m b).att = s.att ∧ (s.recordMove pre cls θ m b).ctl = s.ctl
    ∧ (s.recordMove pre cls θ m b).evt = s.evt ∧ (s.recordMove pre cls θ m b).cap = s.cap
    ∧ (s.recordMove pre cls θ m b).pst = s.pst ∧ (s.recordMove pre cls θ m b).prt = s.prt
    ∧ (s.recordMove pre cls θ m b).ep = s.ep ∧ (s.recordMove pre cls θ m b).posted = s.posted
    ∧ (s.recordMove pre cls θ m b).wire = s.wire ∧ (s.recordMove pre cls θ m b).draws = s.draws
    ∧ (s.recordMove pre cls θ m b).pending = s.pending := by
  generalize ht : s.recordMove pre cls θ m b = t
  unfold State.recordMove at ht; try dsimp only at ht
  (repeat' split at ht) <;> subst ht <;> simp

@[simp] theorem State.applyStep_same (s : State) (cls : TraceClass) (sec : Second) :
    (s.applyStep cls sec).rail33 = s.rail33 ∧ (s.applyStep cls sec).rail09 = s.rail09
    ∧ (s.applyStep cls sec).osc = s.osc ∧ (s.applyStep cls sec).du = s.du
    ∧ (s.applyStep cls sec).lines = s.lines ∧ (s.applyStep cls sec).ctl = s.ctl
    ∧ (s.applyStep cls sec).evt = s.evt ∧ (s.applyStep cls sec).cap = s.cap
    ∧ (s.applyStep cls sec).pst = s.pst ∧ (s.applyStep cls sec).posted = s.posted
    ∧ (s.applyStep cls sec).draws = s.draws ∧ (s.applyStep cls sec).pending = s.pending := by
  generalize ht : s.applyStep cls sec = t
  unfold State.applyStep at ht; try dsimp only at ht
  (repeat' split at ht) <;> subst ht <;> simp

@[simp] theorem State.applySet_same (s : State) (cls : TraceClass) (sec : Second) :
    (s.applySet cls sec).rail33 = s.rail33 ∧ (s.applySet cls sec).rail09 = s.rail09
    ∧ (s.applySet cls sec).osc = s.osc ∧ (s.applySet cls sec).du = s.du
    ∧ (s.applySet cls sec).lines = s.lines ∧ (s.applySet cls sec).ctl = s.ctl
    ∧ (s.applySet cls sec).evt = s.evt ∧ (s.applySet cls sec).cap = s.cap
    ∧ (s.applySet cls sec).pst = s.pst ∧ (s.applySet cls sec).posted = s.posted
    ∧ (s.applySet cls sec).draws = s.draws ∧ (s.applySet cls sec).pending = s.pending := by
  generalize ht : s.applySet cls sec = t
  unfold State.applySet at ht; try dsimp only at ht
  (repeat' split at ht) <;> subst ht <;> simp

@[simp] theorem State.moveTime_same (s : State) (cls : TraceClass) (sec : Second) (mv : Move) :
    (s.moveTime cls sec mv).rail33 = s.rail33 ∧ (s.moveTime cls sec mv).rail09 = s.rail09
    ∧ (s.moveTime cls sec mv).osc = s.osc ∧ (s.moveTime cls sec mv).du = s.du
    ∧ (s.moveTime cls sec mv).lines = s.lines ∧ (s.moveTime cls sec mv).ctl = s.ctl
    ∧ (s.moveTime cls sec mv).evt = s.evt ∧ (s.moveTime cls sec mv).cap = s.cap
    ∧ (s.moveTime cls sec mv).pst = s.pst ∧ (s.moveTime cls sec mv).posted = s.posted
    ∧ (s.moveTime cls sec mv).draws = s.draws ∧ (s.moveTime cls sec mv).pending = s.pending := by
  generalize ht : s.moveTime cls sec mv = t
  unfold State.moveTime at ht; try dsimp only at ht
  (repeat' split at ht) <;> subst ht <;> simp

@[simp] theorem State.stateChanged_same (s : State) (old : DState) (sec : Second) :
    (s.stateChanged old sec).rail33 = s.rail33 ∧ (s.stateChanged old sec).rail09 = s.rail09
    ∧ (s.stateChanged old sec).osc = s.osc ∧ (s.stateChanged old sec).clock = s.clock
    ∧ (s.stateChanged old sec).tb = s.tb ∧ (s.stateChanged old sec).du = s.du
    ∧ (s.stateChanged old sec).lines = s.lines ∧ (s.stateChanged old sec).atu = s.atu
    ∧ (s.stateChanged old sec).att = s.att ∧ (s.stateChanged old sec).ctl = s.ctl
    ∧ (s.stateChanged old sec).evt = s.evt ∧ (s.stateChanged old sec).cap = s.cap
    ∧ (s.stateChanged old sec).pst = s.pst ∧ (s.stateChanged old sec).posted = s.posted
    ∧ (s.stateChanged old sec).draws = s.draws ∧ (s.stateChanged old sec).pending = s.pending := by
  generalize ht : s.stateChanged old sec = t
  unfold State.stateChanged at ht; try dsimp only at ht
  (repeat' split at ht) <;> subst ht <;> simp

@[simp] theorem State.holdDemand_same (s : State) (b : Bool) (sec : Second) :
    (s.holdDemand b sec).rail33 = s.rail33 ∧ (s.holdDemand b sec).rail09 = s.rail09
    ∧ (s.holdDemand b sec).osc = s.osc ∧ (s.holdDemand b sec).clock = s.clock
    ∧ (s.holdDemand b sec).tb = s.tb ∧ (s.holdDemand b sec).du = s.du
    ∧ (s.holdDemand b sec).lines = s.lines ∧ (s.holdDemand b sec).atu = s.atu
    ∧ (s.holdDemand b sec).ctl = s.ctl ∧ (s.holdDemand b sec).evt = s.evt
    ∧ (s.holdDemand b sec).cap = s.cap ∧ (s.holdDemand b sec).pst = s.pst
    ∧ (s.holdDemand b sec).posted = s.posted ∧ (s.holdDemand b sec).pending = s.pending := by
  generalize ht : s.holdDemand b sec = t
  unfold State.holdDemand at ht; try dsimp only at ht
  (repeat' split at ht) <;> subst ht <;> simp

@[simp] theorem State.classChanged_same (s : State) (old : TraceClass) (now : Stamp) (cls : TraceClass) :
    (s.classChanged old now cls).rail33 = s.rail33 ∧ (s.classChanged old now cls).rail09 = s.rail09
    ∧ (s.classChanged old now cls).osc = s.osc ∧ (s.classChanged old now cls).clock = s.clock
    ∧ (s.classChanged old now cls).tb = s.tb ∧ (s.classChanged old now cls).du = s.du
    ∧ (s.classChanged old now cls).lines = s.lines ∧ (s.classChanged old now cls).atu = s.atu
    ∧ (s.classChanged old now cls).att = s.att ∧ (s.classChanged old now cls).ctl = s.ctl
    ∧ (s.classChanged old now cls).evt = s.evt ∧ (s.classChanged old now cls).cap = s.cap
    ∧ (s.classChanged old now cls).pst = s.pst ∧ (s.classChanged old now cls).posted = s.posted
    ∧ (s.classChanged old now cls).draws = s.draws
    ∧ (s.classChanged old now cls).pending = s.pending := by
  generalize ht : s.classChanged old now cls = t
  unfold State.classChanged at ht; try dsimp only at ht
  (repeat' split at ht) <;> subst ht <;> simp

@[simp] theorem State.adoptOffset_same (s : State) (sec : Second) :
    (s.adoptOffset sec).rail33 = s.rail33 ∧ (s.adoptOffset sec).rail09 = s.rail09
    ∧ (s.adoptOffset sec).osc = s.osc ∧ (s.adoptOffset sec).clock = s.clock
    ∧ (s.adoptOffset sec).du = s.du ∧ (s.adoptOffset sec).lines = s.lines
    ∧ (s.adoptOffset sec).atu = s.atu ∧ (s.adoptOffset sec).att = s.att
    ∧ (s.adoptOffset sec).ctl = s.ctl ∧ (s.adoptOffset sec).evt = s.evt
    ∧ (s.adoptOffset sec).cap = s.cap ∧ (s.adoptOffset sec).pst = s.pst
    ∧ (s.adoptOffset sec).prt = s.prt ∧ (s.adoptOffset sec).ep = s.ep
    ∧ (s.adoptOffset sec).posted = s.posted ∧ (s.adoptOffset sec).wire = s.wire
    ∧ (s.adoptOffset sec).draws = s.draws ∧ (s.adoptOffset sec).pending = s.pending := by
  generalize ht : s.adoptOffset sec = t
  unfold State.adoptOffset at ht; try dsimp only at ht
  (repeat' split at ht) <;> subst ht <;> simp

@[simp] theorem State.handSecond_same (s : State) (b : Bool) (sec : Second) :
    (s.handSecond b sec).rail33 = s.rail33 ∧ (s.handSecond b sec).rail09 = s.rail09
    ∧ (s.handSecond b sec).osc = s.osc ∧ (s.handSecond b sec).clock = s.clock
    ∧ (s.handSecond b sec).tb = s.tb ∧ (s.handSecond b sec).du = s.du
    ∧ (s.handSecond b sec).lines = s.lines ∧ (s.handSecond b sec).sqm = s.sqm
    ∧ (s.handSecond b sec).atu = s.atu ∧ (s.handSecond b sec).ctl = s.ctl
    ∧ (s.handSecond b sec).evt = s.evt ∧ (s.handSecond b sec).cap = s.cap
    ∧ (s.handSecond b sec).pst = s.pst ∧ (s.handSecond b sec).prt = s.prt
    ∧ (s.handSecond b sec).ep = s.ep ∧ (s.handSecond b sec).posted = s.posted
    ∧ (s.handSecond b sec).wire = s.wire ∧ (s.handSecond b sec).draws = s.draws
    ∧ (s.handSecond b sec).pending = s.pending := by
  generalize ht : s.handSecond b sec = t
  unfold State.handSecond at ht; try dsimp only at ht
  (repeat' split at ht) <;> subst ht <;> simp

@[simp] theorem State.workOf_same (s : State) (sec : Second) :
    (s.workOf sec).rail33 = s.rail33 ∧ (s.workOf sec).rail09 = s.rail09 ∧ (s.workOf sec).osc = s.osc
    ∧ (s.workOf sec).ctl = s.ctl ∧ (s.workOf sec).evt = s.evt ∧ (s.workOf sec).cap = s.cap
    ∧ (s.workOf sec).pst = s.pst ∧ (s.workOf sec).posted = s.posted
    ∧ (s.workOf sec).pending = s.pending := by
  generalize ht : s.workOf sec = t
  unfold State.workOf at ht; try dsimp only at ht
  (repeat' split at ht) <;> subst ht <;> simp

@[simp] theorem State.actOn_same (s : State) (sec : Second) :
    (s.actOn sec).rail33 = s.rail33 ∧ (s.actOn sec).rail09 = s.rail09 ∧ (s.actOn sec).osc = s.osc
    ∧ (s.actOn sec).ctl = s.ctl ∧ (s.actOn sec).evt = s.evt ∧ (s.actOn sec).cap = s.cap
    ∧ (s.actOn sec).pst = s.pst ∧ (s.actOn sec).posted = s.posted
    ∧ (s.actOn sec).pending = s.pending := by
  generalize ht : s.actOn sec = t
  unfold State.actOn at ht; try dsimp only at ht
  (repeat' split at ht) <;> subst ht <;> simp

@[simp] theorem State.reading_same (s : State) :
    (s.reading).rail33 = s.rail33 ∧ (s.reading).rail09 = s.rail09 ∧ (s.reading).osc = s.osc
    ∧ (s.reading).tb = s.tb ∧ (s.reading).du = s.du ∧ (s.reading).lines = s.lines
    ∧ (s.reading).sqm = s.sqm ∧ (s.reading).atu = s.atu ∧ (s.reading).att = s.att
    ∧ (s.reading).ctl = s.ctl ∧ (s.reading).evt = s.evt ∧ (s.reading).cap = s.cap
    ∧ (s.reading).pst = s.pst ∧ (s.reading).prt = s.prt ∧ (s.reading).ep = s.ep
    ∧ (s.reading).posted = s.posted ∧ (s.reading).wire = s.wire ∧ (s.reading).draws = s.draws
    ∧ (s.reading).pending = s.pending := by
  refine ⟨rfl, rfl, rfl, rfl, rfl, rfl, rfl, rfl, rfl, rfl, rfl, rfl, rfl, rfl, rfl, rfl, rfl, rfl, rfl⟩

@[simp] theorem State.takeAction_same (s : State) :
    (s.takeAction).rail33 = s.rail33 ∧ (s.takeAction).rail09 = s.rail09 ∧ (s.takeAction).osc = s.osc
    ∧ (s.takeAction).ctl = s.ctl ∧ (s.takeAction).evt = s.evt ∧ (s.takeAction).cap = s.cap
    ∧ (s.takeAction).pst = s.pst ∧ (s.takeAction).posted = s.posted
    ∧ (s.takeAction).pending = s.pending := by
  generalize ht : s.takeAction = t
  unfold State.takeAction at ht; try dsimp only at ht
  (repeat' split at ht) <;> subst ht <;> simp

@[simp] theorem State.missingSecond_same (s : State) :
    (s.missingSecond).rail33 = s.rail33 ∧ (s.missingSecond).rail09 = s.rail09
    ∧ (s.missingSecond).osc = s.osc ∧ (s.missingSecond).ctl = s.ctl ∧ (s.missingSecond).evt = s.evt
    ∧ (s.missingSecond).cap = s.cap ∧ (s.missingSecond).pst = s.pst
    ∧ (s.missingSecond).posted = s.posted ∧ (s.missingSecond).pending = s.pending := by
  generalize ht : s.missingSecond = t
  unfold State.missingSecond at ht; try dsimp only at ht
  (repeat' split at ht) <;> subst ht <;> simp

@[simp] theorem State.closeActions_same (s : State) :
    (s.closeActions).rail33 = s.rail33 ∧ (s.closeActions).rail09 = s.rail09
    ∧ (s.closeActions).osc = s.osc ∧ (s.closeActions).ctl = s.ctl ∧ (s.closeActions).evt = s.evt
    ∧ (s.closeActions).cap = s.cap ∧ (s.closeActions).pst = s.pst
    ∧ (s.closeActions).posted = s.posted ∧ (s.closeActions).pending = s.pending := by
  unfold State.closeActions
  generalize s.du.judged.length = n
  induction n generalizing s with
  | zero => simp [times]
  | succ n ih =>
    simp only [times]
    have h := ih (if s.actionDue then s.takeAction else s)
    simp_all [apply_ite]

@[simp] theorem State.acted_same (s : State) :
    (s.acted).rail33 = s.rail33 ∧ (s.acted).rail09 = s.rail09 ∧ (s.acted).osc = s.osc
    ∧ (s.acted).ctl = s.ctl ∧ (s.acted).evt = s.evt ∧ (s.acted).cap = s.cap ∧ (s.acted).pst = s.pst
    ∧ (s.acted).posted = s.posted ∧ (s.acted).pending = s.pending := by
  generalize ht : s.acted = t
  unfold State.acted at ht; try dsimp only at ht
  (repeat' split at ht) <;> subst ht <;> simp

@[simp] theorem State.holdoverSecond_same (s : State) :
    (s.holdoverSecond).rail33 = s.rail33 ∧ (s.holdoverSecond).rail09 = s.rail09
    ∧ (s.holdoverSecond).osc = s.osc ∧ (s.holdoverSecond).ctl = s.ctl
    ∧ (s.holdoverSecond).evt = s.evt ∧ (s.holdoverSecond).cap = s.cap
    ∧ (s.holdoverSecond).pst = s.pst ∧ (s.holdoverSecond).posted = s.posted
    ∧ (s.holdoverSecond).pending = s.pending := by
  generalize ht : s.holdoverSecond = t
  unfold State.holdoverSecond at ht; try dsimp only at ht
  (repeat' split at ht) <;> subst ht <;> simp

@[simp] theorem State.work_same (s : State) :
    (s.work).rail33 = s.rail33 ∧ (s.work).rail09 = s.rail09 ∧ (s.work).osc = s.osc
    ∧ (s.work).ctl = s.ctl ∧ (s.work).evt = s.evt ∧ (s.work).cap = s.cap ∧ (s.work).pst = s.pst
    ∧ (s.work).posted = s.posted ∧ (s.work).pending = s.pending := by
  generalize ht : s.work = t
  unfold State.work at ht; try dsimp only at ht
  (repeat' split at ht) <;> subst ht <;> simp

@[simp] theorem State.done_same (s : State) :
    (s.done).rail33 = s.rail33 ∧ (s.done).rail09 = s.rail09 ∧ (s.done).osc = s.osc
    ∧ (s.done).ctl = s.ctl ∧ (s.done).evt = s.evt ∧ (s.done).cap = s.cap ∧ (s.done).pst = s.pst
    ∧ (s.done).posted = s.posted ∧ (s.done).pending = s.pending := by
  generalize ht : s.done = t
  unfold State.done at ht; try dsimp only at ht
  (repeat' split at ht) <;> subst ht <;> simp

@[simp] theorem State.left_same (s : State) :
    (s.left).rail33 = s.rail33 ∧ (s.left).rail09 = s.rail09 ∧ (s.left).osc = s.osc
    ∧ (s.left).ctl = s.ctl ∧ (s.left).evt = s.evt ∧ (s.left).cap = s.cap ∧ (s.left).pst = s.pst
    ∧ (s.left).posted = s.posted ∧ (s.left).pending = s.pending := by
  generalize ht : s.left = t
  unfold State.left at ht; try dsimp only at ht
  (repeat' split at ht) <;> subst ht <;> simp

@[simp] theorem State.createLeft_same (s : State) (b : Body) :
    (s.createLeft b).rail33 = s.rail33 ∧ (s.createLeft b).rail09 = s.rail09
    ∧ (s.createLeft b).osc = s.osc ∧ (s.createLeft b).clock = s.clock ∧ (s.createLeft b).tb = s.tb
    ∧ (s.createLeft b).du = s.du ∧ (s.createLeft b).lines = s.lines ∧ (s.createLeft b).atu = s.atu
    ∧ (s.createLeft b).att = s.att ∧ (s.createLeft b).ctl = s.ctl ∧ (s.createLeft b).evt = s.evt
    ∧ (s.createLeft b).cap = s.cap ∧ (s.createLeft b).pst = s.pst ∧ (s.createLeft b).prt = s.prt
    ∧ (s.createLeft b).ep = s.ep ∧ (s.createLeft b).posted = s.posted
    ∧ (s.createLeft b).wire = s.wire ∧ (s.createLeft b).draws = s.draws
    ∧ (s.createLeft b).pending = s.pending := by
  generalize ht : s.createLeft b = t
  unfold State.createLeft at ht; try dsimp only at ht
  (repeat' split at ht) <;> subst ht <;> simp

@[simp] theorem State.atInstant_same (s : State) :
    (s.atInstant).rail33 = s.rail33 ∧ (s.atInstant).rail09 = s.rail09 ∧ (s.atInstant).osc = s.osc
    ∧ (s.atInstant).clock = s.clock ∧ (s.atInstant).lines = s.lines ∧ (s.atInstant).sqm = s.sqm
    ∧ (s.atInstant).atu = s.atu ∧ (s.atInstant).att = s.att ∧ (s.atInstant).ctl = s.ctl
    ∧ (s.atInstant).evt = s.evt ∧ (s.atInstant).cap = s.cap ∧ (s.atInstant).pst = s.pst
    ∧ (s.atInstant).prt = s.prt ∧ (s.atInstant).ep = s.ep ∧ (s.atInstant).posted = s.posted
    ∧ (s.atInstant).wire = s.wire ∧ (s.atInstant).draws = s.draws
    ∧ (s.atInstant).pending = s.pending := by
  generalize ht : s.atInstant = t
  unfold State.atInstant at ht; try dsimp only at ht
  (repeat' split at ht) <;> subst ht <;> simp

/-! ## What the work of a period keeps of the port and the endpoint -/

@[simp] theorem State.message_port (s : State) (b : Bool) :
    (s.message b).prt.chains = s.prt.chains ∧ (s.message b).prt.auctions = s.prt.auctions
    ∧ (s.message b).ep.linkUp = s.ep.linkUp ∧ (s.message b).ep.configured = s.ep.configured
    ∧ (s.message b).ep.busMaster = s.ep.busMaster ∧ (s.message b).ep.msi = s.ep.msi
    ∧ (s.message b).ep.masked = s.ep.masked := by
  refine ⟨rfl, rfl, rfl, rfl, rfl, rfl, rfl⟩

@[simp] theorem State.notify_port (s : State) (c : Cause) :
    (s.notify c).prt.chains = s.prt.chains ∧ (s.notify c).prt.auctions = s.prt.auctions
    ∧ (s.notify c).ep.linkUp = s.ep.linkUp ∧ (s.notify c).ep.configured = s.ep.configured
    ∧ (s.notify c).ep.busMaster = s.ep.busMaster ∧ (s.notify c).ep.msi = s.ep.msi
    ∧ (s.notify c).ep.masked = s.ep.masked := by
  refine ⟨rfl, rfl, rfl, rfl, rfl, rfl, rfl⟩

@[simp] theorem State.notifyIf_port (s : State) (b : Bool) (c : Cause) :
    (s.notifyIf b c).prt.chains = s.prt.chains ∧ (s.notifyIf b c).prt.auctions = s.prt.auctions
    ∧ (s.notifyIf b c).ep.linkUp = s.ep.linkUp ∧ (s.notifyIf b c).ep.configured = s.ep.configured
    ∧ (s.notifyIf b c).ep.busMaster = s.ep.busMaster ∧ (s.notifyIf b c).ep.msi = s.ep.msi
    ∧ (s.notifyIf b c).ep.masked = s.ep.masked := by
  cases b <;> refine ⟨rfl, rfl, rfl, rfl, rfl, rfl, rfl⟩

@[simp] theorem State.runAlarm_port (s : State) (a : Fin 8) (n : Nat) (cls : TraceClass) :
    (s.runAlarm a n cls).prt.chains = s.prt.chains
    ∧ (s.runAlarm a n cls).prt.auctions = s.prt.auctions
    ∧ (s.runAlarm a n cls).ep.linkUp = s.ep.linkUp
    ∧ (s.runAlarm a n cls).ep.configured = s.ep.configured
    ∧ (s.runAlarm a n cls).ep.busMaster = s.ep.busMaster ∧ (s.runAlarm a n cls).ep.msi = s.ep.msi
    ∧ (s.runAlarm a n cls).ep.masked = s.ep.masked := by
  generalize ht : s.runAlarm a n cls = t
  unfold State.runAlarm at ht; try dsimp only at ht
  (repeat' split at ht) <;> subst ht <;> simp

@[simp] theorem State.settleAlarm_port (s : State) (cls : TraceClass) (a : Fin 8) :
    (State.settleAlarm cls s a).prt.chains = s.prt.chains
    ∧ (State.settleAlarm cls s a).prt.auctions = s.prt.auctions
    ∧ (State.settleAlarm cls s a).ep.linkUp = s.ep.linkUp
    ∧ (State.settleAlarm cls s a).ep.configured = s.ep.configured
    ∧ (State.settleAlarm cls s a).ep.busMaster = s.ep.busMaster
    ∧ (State.settleAlarm cls s a).ep.msi = s.ep.msi
    ∧ (State.settleAlarm cls s a).ep.masked = s.ep.masked := by
  generalize ht : State.settleAlarm cls s a = t
  unfold State.settleAlarm at ht; try dsimp only at ht
  (repeat' split at ht) <;> subst ht <;> simp

@[simp] theorem State.foldSettleAlarm_port (s : State) (cls : TraceClass) (l : List (Fin 8)) :
    (l.foldl (State.settleAlarm cls) s).prt.chains = s.prt.chains
    ∧ (l.foldl (State.settleAlarm cls) s).prt.auctions = s.prt.auctions
    ∧ (l.foldl (State.settleAlarm cls) s).ep.linkUp = s.ep.linkUp
    ∧ (l.foldl (State.settleAlarm cls) s).ep.configured = s.ep.configured
    ∧ (l.foldl (State.settleAlarm cls) s).ep.busMaster = s.ep.busMaster
    ∧ (l.foldl (State.settleAlarm cls) s).ep.msi = s.ep.msi
    ∧ (l.foldl (State.settleAlarm cls) s).ep.masked = s.ep.masked := by
  induction l generalizing s with
  | nil => simp
  | cons a l ih => simp only [List.foldl_cons]; have h := ih (State.settleAlarm cls s a); simp_all [State.settleAlarm_port]

@[simp] theorem State.settleTimers_port (s : State) (cls : TraceClass) :
    (s.settleTimers cls).prt.chains = s.prt.chains
    ∧ (s.settleTimers cls).prt.auctions = s.prt.auctions
    ∧ (s.settleTimers cls).ep.linkUp = s.ep.linkUp
    ∧ (s.settleTimers cls).ep.configured = s.ep.configured
    ∧ (s.settleTimers cls).ep.busMaster = s.ep.busMaster ∧ (s.settleTimers cls).ep.msi = s.ep.msi
    ∧ (s.settleTimers cls).ep.masked = s.ep.masked := by
  generalize ht : s.settleTimers cls = t
  unfold State.settleTimers at ht; try dsimp only at ht
  (repeat' split at ht) <;> subst ht <;> simp

@[simp] theorem State.passAlarm_port (s : State) (a : Fin 8) (pre post : Instant) :
    (State.passAlarm pre post s a).prt.chains = s.prt.chains
    ∧ (State.passAlarm pre post s a).prt.auctions = s.prt.auctions
    ∧ (State.passAlarm pre post s a).ep.linkUp = s.ep.linkUp
    ∧ (State.passAlarm pre post s a).ep.configured = s.ep.configured
    ∧ (State.passAlarm pre post s a).ep.busMaster = s.ep.busMaster
    ∧ (State.passAlarm pre post s a).ep.msi = s.ep.msi
    ∧ (State.passAlarm pre post s a).ep.masked = s.ep.masked := by
  generalize ht : State.passAlarm pre post s a = t
  unfold State.passAlarm at ht; try dsimp only at ht
  (repeat' split at ht) <;> subst ht <;> simp

@[simp] theorem State.foldPassAlarm_port (s : State) (pre post : Instant) (l : List (Fin 8)) :
    (l.foldl (State.passAlarm pre post) s).prt.chains = s.prt.chains
    ∧ (l.foldl (State.passAlarm pre post) s).prt.auctions = s.prt.auctions
    ∧ (l.foldl (State.passAlarm pre post) s).ep.linkUp = s.ep.linkUp
    ∧ (l.foldl (State.passAlarm pre post) s).ep.configured = s.ep.configured
    ∧ (l.foldl (State.passAlarm pre post) s).ep.busMaster = s.ep.busMaster
    ∧ (l.foldl (State.passAlarm pre post) s).ep.msi = s.ep.msi
    ∧ (l.foldl (State.passAlarm pre post) s).ep.masked = s.ep.masked := by
  induction l generalizing s with
  | nil => simp
  | cons a l ih => simp only [List.foldl_cons]; have h := ih (State.passAlarm pre post s a); simp_all [State.passAlarm_port]

@[simp] theorem State.passTimers_port (s : State) (pre post : Instant) :
    (s.passTimers pre post).prt.chains = s.prt.chains
    ∧ (s.passTimers pre post).prt.auctions = s.prt.auctions
    ∧ (s.passTimers pre post).ep.linkUp = s.ep.linkUp
    ∧ (s.passTimers pre post).ep.configured = s.ep.configured
    ∧ (s.passTimers pre post).ep.busMaster = s.ep.busMaster
    ∧ (s.passTimers pre post).ep.msi = s.ep.msi ∧ (s.passTimers pre post).ep.masked = s.ep.masked := by
  generalize ht : s.passTimers pre post = t
  unfold State.passTimers at ht; try dsimp only at ht
  (repeat' split at ht) <;> subst ht <;> simp

@[simp] theorem State.afterMove_port (s : State) (pre post : Instant) (d : Int) :
    (s.afterMove pre post d).prt.chains = s.prt.chains
    ∧ (s.afterMove pre post d).prt.auctions = s.prt.auctions
    ∧ (s.afterMove pre post d).ep.linkUp = s.ep.linkUp
    ∧ (s.afterMove pre post d).ep.configured = s.ep.configured
    ∧ (s.afterMove pre post d).ep.busMaster = s.ep.busMaster
    ∧ (s.afterMove pre post d).ep.msi = s.ep.msi ∧ (s.afterMove pre post d).ep.masked = s.ep.masked := by
  generalize ht : s.afterMove pre post d = t
  unfold State.afterMove at ht; try dsimp only at ht
  (repeat' split at ht) <;> subst ht <;> simp

@[simp] theorem State.applyStep_port (s : State) (cls : TraceClass) (sec : Second) :
    (s.applyStep cls sec).prt.chains = s.prt.chains
    ∧ (s.applyStep cls sec).prt.auctions = s.prt.auctions
    ∧ (s.applyStep cls sec).ep.linkUp = s.ep.linkUp
    ∧ (s.applyStep cls sec).ep.configured = s.ep.configured
    ∧ (s.applyStep cls sec).ep.busMaster = s.ep.busMaster ∧ (s.applyStep cls sec).ep.msi = s.ep.msi
    ∧ (s.applyStep cls sec).ep.masked = s.ep.masked := by
  generalize ht : s.applyStep cls sec = t
  unfold State.applyStep at ht; try dsimp only at ht
  (repeat' split at ht) <;> subst ht <;> simp

@[simp] theorem State.applySet_port (s : State) (cls : TraceClass) (sec : Second) :
    (s.applySet cls sec).prt.chains = s.prt.chains
    ∧ (s.applySet cls sec).prt.auctions = s.prt.auctions
    ∧ (s.applySet cls sec).ep.linkUp = s.ep.linkUp
    ∧ (s.applySet cls sec).ep.configured = s.ep.configured
    ∧ (s.applySet cls sec).ep.busMaster = s.ep.busMaster ∧ (s.applySet cls sec).ep.msi = s.ep.msi
    ∧ (s.applySet cls sec).ep.masked = s.ep.masked := by
  generalize ht : s.applySet cls sec = t
  unfold State.applySet at ht; try dsimp only at ht
  (repeat' split at ht) <;> subst ht <;> simp

@[simp] theorem State.moveTime_port (s : State) (cls : TraceClass) (sec : Second) (mv : Move) :
    (s.moveTime cls sec mv).prt.chains = s.prt.chains
    ∧ (s.moveTime cls sec mv).prt.auctions = s.prt.auctions
    ∧ (s.moveTime cls sec mv).ep.linkUp = s.ep.linkUp
    ∧ (s.moveTime cls sec mv).ep.configured = s.ep.configured
    ∧ (s.moveTime cls sec mv).ep.busMaster = s.ep.busMaster
    ∧ (s.moveTime cls sec mv).ep.msi = s.ep.msi ∧ (s.moveTime cls sec mv).ep.masked = s.ep.masked := by
  generalize ht : s.moveTime cls sec mv = t
  unfold State.moveTime at ht; try dsimp only at ht
  (repeat' split at ht) <;> subst ht <;> simp

@[simp] theorem State.stateChanged_port (s : State) (old : DState) (sec : Second) :
    (s.stateChanged old sec).prt.chains = s.prt.chains
    ∧ (s.stateChanged old sec).prt.auctions = s.prt.auctions
    ∧ (s.stateChanged old sec).ep.linkUp = s.ep.linkUp
    ∧ (s.stateChanged old sec).ep.configured = s.ep.configured
    ∧ (s.stateChanged old sec).ep.busMaster = s.ep.busMaster
    ∧ (s.stateChanged old sec).ep.msi = s.ep.msi ∧ (s.stateChanged old sec).ep.masked = s.ep.masked := by
  generalize ht : s.stateChanged old sec = t
  unfold State.stateChanged at ht; try dsimp only at ht
  (repeat' split at ht) <;> subst ht <;> simp

@[simp] theorem State.holdDemand_port (s : State) (b : Bool) (sec : Second) :
    (s.holdDemand b sec).prt.chains = s.prt.chains
    ∧ (s.holdDemand b sec).prt.auctions = s.prt.auctions
    ∧ (s.holdDemand b sec).ep.linkUp = s.ep.linkUp
    ∧ (s.holdDemand b sec).ep.configured = s.ep.configured
    ∧ (s.holdDemand b sec).ep.busMaster = s.ep.busMaster ∧ (s.holdDemand b sec).ep.msi = s.ep.msi
    ∧ (s.holdDemand b sec).ep.masked = s.ep.masked := by
  generalize ht : s.holdDemand b sec = t
  unfold State.holdDemand at ht; try dsimp only at ht
  (repeat' split at ht) <;> subst ht <;> simp

@[simp] theorem State.classChanged_port (s : State) (old : TraceClass) (now : Stamp) (cls : TraceClass) :
    (s.classChanged old now cls).prt.chains = s.prt.chains
    ∧ (s.classChanged old now cls).prt.auctions = s.prt.auctions
    ∧ (s.classChanged old now cls).ep.linkUp = s.ep.linkUp
    ∧ (s.classChanged old now cls).ep.configured = s.ep.configured
    ∧ (s.classChanged old now cls).ep.busMaster = s.ep.busMaster
    ∧ (s.classChanged old now cls).ep.msi = s.ep.msi
    ∧ (s.classChanged old now cls).ep.masked = s.ep.masked := by
  generalize ht : s.classChanged old now cls = t
  unfold State.classChanged at ht; try dsimp only at ht
  (repeat' split at ht) <;> subst ht <;> simp

@[simp] theorem State.workOf_port (s : State) (sec : Second) :
    (s.workOf sec).prt.chains = s.prt.chains ∧ (s.workOf sec).prt.auctions = s.prt.auctions
    ∧ (s.workOf sec).ep.linkUp = s.ep.linkUp ∧ (s.workOf sec).ep.configured = s.ep.configured
    ∧ (s.workOf sec).ep.busMaster = s.ep.busMaster ∧ (s.workOf sec).ep.msi = s.ep.msi
    ∧ (s.workOf sec).ep.masked = s.ep.masked := by
  generalize ht : s.workOf sec = t
  unfold State.workOf at ht; try dsimp only at ht
  (repeat' split at ht) <;> subst ht <;> simp

@[simp] theorem State.actOn_port (s : State) (sec : Second) :
    (s.actOn sec).prt.chains = s.prt.chains ∧ (s.actOn sec).prt.auctions = s.prt.auctions
    ∧ (s.actOn sec).ep.linkUp = s.ep.linkUp ∧ (s.actOn sec).ep.configured = s.ep.configured
    ∧ (s.actOn sec).ep.busMaster = s.ep.busMaster ∧ (s.actOn sec).ep.msi = s.ep.msi
    ∧ (s.actOn sec).ep.masked = s.ep.masked := by
  generalize ht : s.actOn sec = t
  unfold State.actOn at ht; try dsimp only at ht
  (repeat' split at ht) <;> subst ht <;> simp

@[simp] theorem State.reading_port (s : State) :
    (s.reading).prt.chains = s.prt.chains ∧ (s.reading).prt.auctions = s.prt.auctions
    ∧ (s.reading).ep.linkUp = s.ep.linkUp ∧ (s.reading).ep.configured = s.ep.configured
    ∧ (s.reading).ep.busMaster = s.ep.busMaster ∧ (s.reading).ep.msi = s.ep.msi
    ∧ (s.reading).ep.masked = s.ep.masked := by
  refine ⟨rfl, rfl, rfl, rfl, rfl, rfl, rfl⟩

@[simp] theorem State.takeAction_port (s : State) :
    (s.takeAction).prt.chains = s.prt.chains ∧ (s.takeAction).prt.auctions = s.prt.auctions
    ∧ (s.takeAction).ep.linkUp = s.ep.linkUp ∧ (s.takeAction).ep.configured = s.ep.configured
    ∧ (s.takeAction).ep.busMaster = s.ep.busMaster ∧ (s.takeAction).ep.msi = s.ep.msi
    ∧ (s.takeAction).ep.masked = s.ep.masked := by
  generalize ht : s.takeAction = t
  unfold State.takeAction at ht; try dsimp only at ht
  (repeat' split at ht) <;> subst ht <;> simp

@[simp] theorem State.missingSecond_port (s : State) :
    (s.missingSecond).prt.chains = s.prt.chains ∧ (s.missingSecond).prt.auctions = s.prt.auctions
    ∧ (s.missingSecond).ep.linkUp = s.ep.linkUp ∧ (s.missingSecond).ep.configured = s.ep.configured
    ∧ (s.missingSecond).ep.busMaster = s.ep.busMaster ∧ (s.missingSecond).ep.msi = s.ep.msi
    ∧ (s.missingSecond).ep.masked = s.ep.masked := by
  generalize ht : s.missingSecond = t
  unfold State.missingSecond at ht; try dsimp only at ht
  (repeat' split at ht) <;> subst ht <;> simp

@[simp] theorem State.closeActions_port (s : State) :
    (s.closeActions).prt.chains = s.prt.chains ∧ (s.closeActions).prt.auctions = s.prt.auctions
    ∧ (s.closeActions).ep.linkUp = s.ep.linkUp ∧ (s.closeActions).ep.configured = s.ep.configured
    ∧ (s.closeActions).ep.busMaster = s.ep.busMaster ∧ (s.closeActions).ep.msi = s.ep.msi
    ∧ (s.closeActions).ep.masked = s.ep.masked := by
  unfold State.closeActions
  generalize s.du.judged.length = n
  induction n generalizing s with
  | zero => simp [times]
  | succ n ih =>
    simp only [times]
    have h := ih (if s.actionDue then s.takeAction else s)
    simp_all [apply_ite]

@[simp] theorem State.acted_port (s : State) :
    (s.acted).prt.chains = s.prt.chains ∧ (s.acted).prt.auctions = s.prt.auctions
    ∧ (s.acted).ep.linkUp = s.ep.linkUp ∧ (s.acted).ep.configured = s.ep.configured
    ∧ (s.acted).ep.busMaster = s.ep.busMaster ∧ (s.acted).ep.msi = s.ep.msi
    ∧ (s.acted).ep.masked = s.ep.masked := by
  generalize ht : s.acted = t
  unfold State.acted at ht; try dsimp only at ht
  (repeat' split at ht) <;> subst ht <;> simp

@[simp] theorem State.holdoverSecond_port (s : State) :
    (s.holdoverSecond).prt.chains = s.prt.chains ∧ (s.holdoverSecond).prt.auctions = s.prt.auctions
    ∧ (s.holdoverSecond).ep.linkUp = s.ep.linkUp
    ∧ (s.holdoverSecond).ep.configured = s.ep.configured
    ∧ (s.holdoverSecond).ep.busMaster = s.ep.busMaster ∧ (s.holdoverSecond).ep.msi = s.ep.msi
    ∧ (s.holdoverSecond).ep.masked = s.ep.masked := by
  generalize ht : s.holdoverSecond = t
  unfold State.holdoverSecond at ht; try dsimp only at ht
  (repeat' split at ht) <;> subst ht <;> simp

@[simp] theorem State.work_port (s : State) :
    (s.work).prt.chains = s.prt.chains ∧ (s.work).prt.auctions = s.prt.auctions
    ∧ (s.work).ep.linkUp = s.ep.linkUp ∧ (s.work).ep.configured = s.ep.configured
    ∧ (s.work).ep.busMaster = s.ep.busMaster ∧ (s.work).ep.msi = s.ep.msi
    ∧ (s.work).ep.masked = s.ep.masked := by
  generalize ht : s.work = t
  unfold State.work at ht; try dsimp only at ht
  (repeat' split at ht) <;> subst ht <;> simp

@[simp] theorem State.done_port (s : State) :
    (s.done).prt.chains = s.prt.chains ∧ (s.done).prt.auctions = s.prt.auctions
    ∧ (s.done).ep.linkUp = s.ep.linkUp ∧ (s.done).ep.configured = s.ep.configured
    ∧ (s.done).ep.busMaster = s.ep.busMaster ∧ (s.done).ep.msi = s.ep.msi
    ∧ (s.done).ep.masked = s.ep.masked := by
  generalize ht : s.done = t
  unfold State.done at ht; try dsimp only at ht
  (repeat' split at ht) <;> subst ht <;> simp

@[simp] theorem State.left_port (s : State) :
    (s.left).prt.chains = s.prt.chains ∧ (s.left).prt.auctions = s.prt.auctions
    ∧ (s.left).ep.linkUp = s.ep.linkUp ∧ (s.left).ep.configured = s.ep.configured
    ∧ (s.left).ep.busMaster = s.ep.busMaster ∧ (s.left).ep.msi = s.ep.msi
    ∧ (s.left).ep.masked = s.ep.masked := by
  generalize ht : s.left = t
  unfold State.left at ht; try dsimp only at ht
  (repeat' split at ht) <;> subst ht <;> simp

/-! ## Chains and releases -/

@[simp] theorem State.finishControl_same (s : State) (a : Bool) (c : CloseCause) (n : Nat) (b : Bool) :
    (s.finishControl a c n b).rail33 = s.rail33 ∧ (s.finishControl a c n b).rail09 = s.rail09
    ∧ (s.finishControl a c n b).osc = s.osc ∧ (s.finishControl a c n b).clock = s.clock
    ∧ (s.finishControl a c n b).tb = s.tb ∧ (s.finishControl a c n b).du = s.du
    ∧ (s.finishControl a c n b).lines = s.lines ∧ (s.finishControl a c n b).sqm = s.sqm
    ∧ (s.finishControl a c n b).atu = s.atu ∧ (s.finishControl a c n b).att = s.att
    ∧ (s.finishControl a c n b).ctl = s.ctl ∧ (s.finishControl a c n b).evt = s.evt
    ∧ (s.finishControl a c n b).cap = s.cap ∧ (s.finishControl a c n b).pst = s.pst
    ∧ (s.finishControl a c n b).prt = s.prt ∧ (s.finishControl a c n b).ep = s.ep
    ∧ (s.finishControl a c n b).wire = s.wire ∧ (s.finishControl a c n b).draws = s.draws
    ∧ (s.finishControl a c n b).pending = s.pending := by
  generalize ht : s.finishControl a c n b = t
  unfold State.finishControl at ht; try dsimp only at ht
  (repeat' split at ht) <;> subst ht <;> simp

@[simp] theorem State.advanceControl_same (s : State) (a b : Nat) :
    (s.advanceControl a b).rail33 = s.rail33 ∧ (s.advanceControl a b).rail09 = s.rail09
    ∧ (s.advanceControl a b).osc = s.osc ∧ (s.advanceControl a b).clock = s.clock
    ∧ (s.advanceControl a b).tb = s.tb ∧ (s.advanceControl a b).du = s.du
    ∧ (s.advanceControl a b).lines = s.lines ∧ (s.advanceControl a b).sqm = s.sqm
    ∧ (s.advanceControl a b).atu = s.atu ∧ (s.advanceControl a b).att = s.att
    ∧ (s.advanceControl a b).pst = s.pst ∧ (s.advanceControl a b).prt = s.prt
    ∧ (s.advanceControl a b).ep = s.ep ∧ (s.advanceControl a b).wire = s.wire
    ∧ (s.advanceControl a b).draws = s.draws ∧ (s.advanceControl a b).pending = s.pending := by
  generalize ht : s.advanceControl a b = t
  unfold State.advanceControl at ht; try dsimp only at ht
  (repeat' split at ht) <;> subst ht <;> simp

@[simp] theorem State.stopAtSlot_same (s : State) (a b : Nat) :
    (s.stopAtSlot a b).rail33 = s.rail33 ∧ (s.stopAtSlot a b).rail09 = s.rail09
    ∧ (s.stopAtSlot a b).osc = s.osc ∧ (s.stopAtSlot a b).clock = s.clock
    ∧ (s.stopAtSlot a b).tb = s.tb ∧ (s.stopAtSlot a b).du = s.du
    ∧ (s.stopAtSlot a b).lines = s.lines ∧ (s.stopAtSlot a b).sqm = s.sqm
    ∧ (s.stopAtSlot a b).atu = s.atu ∧ (s.stopAtSlot a b).att = s.att
    ∧ (s.stopAtSlot a b).pst = s.pst ∧ (s.stopAtSlot a b).prt = s.prt ∧ (s.stopAtSlot a b).ep = s.ep
    ∧ (s.stopAtSlot a b).wire = s.wire ∧ (s.stopAtSlot a b).draws = s.draws
    ∧ (s.stopAtSlot a b).pending = s.pending := by
  generalize ht : s.stopAtSlot a b = t
  unfold State.stopAtSlot at ht; try dsimp only at ht
  (repeat' split at ht) <;> subst ht <;> simp

@[simp] theorem State.afterSlot_same (s : State) (a b : Nat) :
    (s.afterSlot a b).rail33 = s.rail33 ∧ (s.afterSlot a b).rail09 = s.rail09
    ∧ (s.afterSlot a b).osc = s.osc ∧ (s.afterSlot a b).clock = s.clock
    ∧ (s.afterSlot a b).tb = s.tb ∧ (s.afterSlot a b).du = s.du ∧ (s.afterSlot a b).lines = s.lines
    ∧ (s.afterSlot a b).sqm = s.sqm ∧ (s.afterSlot a b).atu = s.atu ∧ (s.afterSlot a b).att = s.att
    ∧ (s.afterSlot a b).pst = s.pst ∧ (s.afterSlot a b).prt = s.prt ∧ (s.afterSlot a b).ep = s.ep
    ∧ (s.afterSlot a b).wire = s.wire ∧ (s.afterSlot a b).draws = s.draws
    ∧ (s.afterSlot a b).pending = s.pending := by
  generalize ht : s.afterSlot a b = t
  unfold State.afterSlot at ht; try dsimp only at ht
  (repeat' split at ht) <;> subst ht <;> simp

@[simp] theorem State.countControl_same (s : State) :
    (s.countControl).rail33 = s.rail33 ∧ (s.countControl).rail09 = s.rail09
    ∧ (s.countControl).osc = s.osc ∧ (s.countControl).clock = s.clock ∧ (s.countControl).tb = s.tb
    ∧ (s.countControl).du = s.du ∧ (s.countControl).lines = s.lines ∧ (s.countControl).sqm = s.sqm
    ∧ (s.countControl).atu = s.atu ∧ (s.countControl).att = s.att ∧ (s.countControl).evt = s.evt
    ∧ (s.countControl).cap = s.cap ∧ (s.countControl).pst = s.pst ∧ (s.countControl).prt = s.prt
    ∧ (s.countControl).ep = s.ep ∧ (s.countControl).posted = s.posted
    ∧ (s.countControl).wire = s.wire ∧ (s.countControl).draws = s.draws
    ∧ (s.countControl).pending = s.pending := by
  generalize ht : s.countControl = t
  unfold State.countControl at ht; try dsimp only at ht
  (repeat' split at ht) <;> subst ht <;> simp

@[simp] theorem State.finishEvent_same (s : State) :
    (s.finishEvent).rail33 = s.rail33 ∧ (s.finishEvent).rail09 = s.rail09
    ∧ (s.finishEvent).osc = s.osc ∧ (s.finishEvent).clock = s.clock ∧ (s.finishEvent).tb = s.tb
    ∧ (s.finishEvent).du = s.du ∧ (s.finishEvent).lines = s.lines ∧ (s.finishEvent).sqm = s.sqm
    ∧ (s.finishEvent).atu = s.atu ∧ (s.finishEvent).att = s.att ∧ (s.finishEvent).ctl = s.ctl
    ∧ (s.finishEvent).cap = s.cap ∧ (s.finishEvent).pst = s.pst ∧ (s.finishEvent).prt = s.prt
    ∧ (s.finishEvent).ep = s.ep ∧ (s.finishEvent).wire = s.wire ∧ (s.finishEvent).draws = s.draws
    ∧ (s.finishEvent).pending = s.pending := by
  generalize ht : s.finishEvent = t
  unfold State.finishEvent at ht; try dsimp only at ht
  (repeat' split at ht) <;> subst ht <;> simp

@[simp] theorem State.mapCurrent_same (s : State) (f : EvtBlock → EvtBlock) :
    (s.mapCurrent f).rail33 = s.rail33 ∧ (s.mapCurrent f).rail09 = s.rail09
    ∧ (s.mapCurrent f).osc = s.osc ∧ (s.mapCurrent f).clock = s.clock ∧ (s.mapCurrent f).tb = s.tb
    ∧ (s.mapCurrent f).du = s.du ∧ (s.mapCurrent f).lines = s.lines ∧ (s.mapCurrent f).sqm = s.sqm
    ∧ (s.mapCurrent f).atu = s.atu ∧ (s.mapCurrent f).att = s.att ∧ (s.mapCurrent f).ctl = s.ctl
    ∧ (s.mapCurrent f).cap = s.cap ∧ (s.mapCurrent f).pst = s.pst ∧ (s.mapCurrent f).prt = s.prt
    ∧ (s.mapCurrent f).ep = s.ep ∧ (s.mapCurrent f).posted = s.posted
    ∧ (s.mapCurrent f).wire = s.wire ∧ (s.mapCurrent f).draws = s.draws
    ∧ (s.mapCurrent f).pending = s.pending := by
  generalize ht : s.mapCurrent f = t
  unfold State.mapCurrent at ht; try dsimp only at ht
  (repeat' split at ht) <;> subst ht <;> simp

@[simp] theorem State.leaveEvent_same (s : State) :
    (s.leaveEvent).rail33 = s.rail33 ∧ (s.leaveEvent).rail09 = s.rail09 ∧ (s.leaveEvent).osc = s.osc
    ∧ (s.leaveEvent).clock = s.clock ∧ (s.leaveEvent).tb = s.tb ∧ (s.leaveEvent).du = s.du
    ∧ (s.leaveEvent).lines = s.lines ∧ (s.leaveEvent).sqm = s.sqm ∧ (s.leaveEvent).atu = s.atu
    ∧ (s.leaveEvent).att = s.att ∧ (s.leaveEvent).pst = s.pst ∧ (s.leaveEvent).prt = s.prt
    ∧ (s.leaveEvent).ep = s.ep ∧ (s.leaveEvent).wire = s.wire ∧ (s.leaveEvent).draws = s.draws
    ∧ (s.leaveEvent).pending = s.pending := by
  generalize ht : s.leaveEvent = t
  unfold State.leaveEvent at ht; try dsimp only at ht
  (repeat' split at ht) <;> subst ht <;> simp

@[simp] theorem State.advanceEvent_same (s : State) (a b : Nat) :
    (s.advanceEvent a b).rail33 = s.rail33 ∧ (s.advanceEvent a b).rail09 = s.rail09
    ∧ (s.advanceEvent a b).osc = s.osc ∧ (s.advanceEvent a b).clock = s.clock
    ∧ (s.advanceEvent a b).tb = s.tb ∧ (s.advanceEvent a b).du = s.du
    ∧ (s.advanceEvent a b).lines = s.lines ∧ (s.advanceEvent a b).sqm = s.sqm
    ∧ (s.advanceEvent a b).atu = s.atu ∧ (s.advanceEvent a b).att = s.att
    ∧ (s.advanceEvent a b).pst = s.pst ∧ (s.advanceEvent a b).prt = s.prt
    ∧ (s.advanceEvent a b).ep = s.ep ∧ (s.advanceEvent a b).wire = s.wire
    ∧ (s.advanceEvent a b).draws = s.draws ∧ (s.advanceEvent a b).pending = s.pending := by
  generalize ht : s.advanceEvent a b = t
  unfold State.advanceEvent at ht; try dsimp only at ht
  (repeat' split at ht) <;> subst ht <;> simp

@[simp] theorem State.finishStop_same (s : State) :
    (s.finishStop).rail33 = s.rail33 ∧ (s.finishStop).rail09 = s.rail09 ∧ (s.finishStop).osc = s.osc
    ∧ (s.finishStop).clock = s.clock ∧ (s.finishStop).tb = s.tb ∧ (s.finishStop).du = s.du
    ∧ (s.finishStop).lines = s.lines ∧ (s.finishStop).sqm = s.sqm ∧ (s.finishStop).atu = s.atu
    ∧ (s.finishStop).att = s.att ∧ (s.finishStop).pst = s.pst ∧ (s.finishStop).prt = s.prt
    ∧ (s.finishStop).ep = s.ep ∧ (s.finishStop).wire = s.wire ∧ (s.finishStop).draws = s.draws
    ∧ (s.finishStop).pending = s.pending := by
  generalize ht : s.finishStop = t
  unfold State.finishStop at ht; try dsimp only at ht
  (repeat' split at ht) <;> subst ht <;> simp

@[simp] theorem State.refuseEvent_same (s : State) (a : Nat) (h : SlotHead) (st : SlotStatus) :
    (s.refuseEvent a h st).rail33 = s.rail33 ∧ (s.refuseEvent a h st).rail09 = s.rail09
    ∧ (s.refuseEvent a h st).osc = s.osc ∧ (s.refuseEvent a h st).clock = s.clock
    ∧ (s.refuseEvent a h st).tb = s.tb ∧ (s.refuseEvent a h st).du = s.du
    ∧ (s.refuseEvent a h st).lines = s.lines ∧ (s.refuseEvent a h st).sqm = s.sqm
    ∧ (s.refuseEvent a h st).atu = s.atu ∧ (s.refuseEvent a h st).att = s.att
    ∧ (s.refuseEvent a h st).pst = s.pst ∧ (s.refuseEvent a h st).prt = s.prt
    ∧ (s.refuseEvent a h st).ep = s.ep ∧ (s.refuseEvent a h st).wire = s.wire
    ∧ (s.refuseEvent a h st).draws = s.draws ∧ (s.refuseEvent a h st).pending = s.pending := by
  generalize ht : s.refuseEvent a h st = t
  unfold State.refuseEvent at ht; try dsimp only at ht
  (repeat' split at ht) <;> subst ht <;> simp

@[simp] theorem State.refuseControl_same (s : State) (a : Nat) (h : SlotHead) (st : SlotStatus) :
    (s.refuseControl a h st).rail33 = s.rail33 ∧ (s.refuseControl a h st).rail09 = s.rail09
    ∧ (s.refuseControl a h st).osc = s.osc ∧ (s.refuseControl a h st).clock = s.clock
    ∧ (s.refuseControl a h st).tb = s.tb ∧ (s.refuseControl a h st).du = s.du
    ∧ (s.refuseControl a h st).lines = s.lines ∧ (s.refuseControl a h st).sqm = s.sqm
    ∧ (s.refuseControl a h st).atu = s.atu ∧ (s.refuseControl a h st).att = s.att
    ∧ (s.refuseControl a h st).pst = s.pst ∧ (s.refuseControl a h st).prt = s.prt
    ∧ (s.refuseControl a h st).ep = s.ep ∧ (s.refuseControl a h st).wire = s.wire
    ∧ (s.refuseControl a h st).draws = s.draws ∧ (s.refuseControl a h st).pending = s.pending := by
  generalize ht : s.refuseControl a h st = t
  unfold State.refuseControl at ht; try dsimp only at ht
  (repeat' split at ht) <;> subst ht <;> simp

@[simp] theorem State.settleControl_same (s : State) :
    (s.settleControl).rail33 = s.rail33 ∧ (s.settleControl).rail09 = s.rail09
    ∧ (s.settleControl).osc = s.osc ∧ (s.settleControl).clock = s.clock
    ∧ (s.settleControl).tb = s.tb ∧ (s.settleControl).du = s.du ∧ (s.settleControl).lines = s.lines
    ∧ (s.settleControl).sqm = s.sqm ∧ (s.settleControl).atu = s.atu ∧ (s.settleControl).att = s.att
    ∧ (s.settleControl).pst = s.pst ∧ (s.settleControl).prt = s.prt ∧ (s.settleControl).ep = s.ep
    ∧ (s.settleControl).wire = s.wire ∧ (s.settleControl).draws = s.draws
    ∧ (s.settleControl).pending = s.pending := by
  generalize ht : s.settleControl = t
  unfold State.settleControl at ht; try dsimp only at ht
  (repeat' split at ht) <;> subst ht <;> simp

@[simp] theorem State.settleEvent_same (s : State) :
    (s.settleEvent).rail33 = s.rail33 ∧ (s.settleEvent).rail09 = s.rail09
    ∧ (s.settleEvent).osc = s.osc ∧ (s.settleEvent).clock = s.clock ∧ (s.settleEvent).tb = s.tb
    ∧ (s.settleEvent).du = s.du ∧ (s.settleEvent).lines = s.lines ∧ (s.settleEvent).sqm = s.sqm
    ∧ (s.settleEvent).atu = s.atu ∧ (s.settleEvent).att = s.att ∧ (s.settleEvent).pst = s.pst
    ∧ (s.settleEvent).prt = s.prt ∧ (s.settleEvent).ep = s.ep ∧ (s.settleEvent).wire = s.wire
    ∧ (s.settleEvent).draws = s.draws ∧ (s.settleEvent).pending = s.pending := by
  generalize ht : s.settleEvent = t
  unfold State.settleEvent at ht; try dsimp only at ht
  (repeat' split at ht) <;> subst ht <;> simp

@[simp] theorem State.sendPlain_same (s : State) :
    (s.sendPlain).rail33 = s.rail33 ∧ (s.sendPlain).rail09 = s.rail09 ∧ (s.sendPlain).osc = s.osc
    ∧ (s.sendPlain).clock = s.clock ∧ (s.sendPlain).tb = s.tb ∧ (s.sendPlain).du = s.du
    ∧ (s.sendPlain).lines = s.lines ∧ (s.sendPlain).sqm = s.sqm ∧ (s.sendPlain).atu = s.atu
    ∧ (s.sendPlain).att = s.att ∧ (s.sendPlain).ctl = s.ctl ∧ (s.sendPlain).evt = s.evt
    ∧ (s.sendPlain).cap = s.cap ∧ (s.sendPlain).pst = s.pst ∧ (s.sendPlain).prt = s.prt
    ∧ (s.sendPlain).ep = s.ep ∧ (s.sendPlain).draws = s.draws ∧ (s.sendPlain).pending = s.pending := by
  generalize ht : s.sendPlain = t
  unfold State.sendPlain at ht; try dsimp only at ht
  (repeat' split at ht) <;> subst ht <;> simp

@[simp] theorem State.sendFirst_same (s : State) (n : Nat) :
    (s.sendFirst n).rail33 = s.rail33 ∧ (s.sendFirst n).rail09 = s.rail09
    ∧ (s.sendFirst n).osc = s.osc ∧ (s.sendFirst n).clock = s.clock ∧ (s.sendFirst n).tb = s.tb
    ∧ (s.sendFirst n).du = s.du ∧ (s.sendFirst n).lines = s.lines ∧ (s.sendFirst n).sqm = s.sqm
    ∧ (s.sendFirst n).atu = s.atu ∧ (s.sendFirst n).att = s.att ∧ (s.sendFirst n).ctl = s.ctl
    ∧ (s.sendFirst n).evt = s.evt ∧ (s.sendFirst n).cap = s.cap ∧ (s.sendFirst n).pst = s.pst
    ∧ (s.sendFirst n).prt = s.prt ∧ (s.sendFirst n).ep = s.ep ∧ (s.sendFirst n).draws = s.draws
    ∧ (s.sendFirst n).pending = s.pending := by
  generalize ht : s.sendFirst n = t
  unfold State.sendFirst at ht; try dsimp only at ht
  (repeat' split at ht) <;> subst ht <;> simp

@[simp] theorem State.abandonWrites_same (s : State) :
    (s.abandonWrites).rail33 = s.rail33 ∧ (s.abandonWrites).rail09 = s.rail09
    ∧ (s.abandonWrites).osc = s.osc ∧ (s.abandonWrites).clock = s.clock
    ∧ (s.abandonWrites).tb = s.tb ∧ (s.abandonWrites).du = s.du ∧ (s.abandonWrites).lines = s.lines
    ∧ (s.abandonWrites).sqm = s.sqm ∧ (s.abandonWrites).atu = s.atu ∧ (s.abandonWrites).att = s.att
    ∧ (s.abandonWrites).ctl = s.ctl ∧ (s.abandonWrites).evt = s.evt ∧ (s.abandonWrites).cap = s.cap
    ∧ (s.abandonWrites).pst = s.pst ∧ (s.abandonWrites).prt = s.prt ∧ (s.abandonWrites).ep = s.ep
    ∧ (s.abandonWrites).draws = s.draws ∧ (s.abandonWrites).pending = s.pending := by
  generalize ht : s.abandonWrites = t
  unfold State.abandonWrites at ht; try dsimp only at ht
  (repeat' split at ht) <;> subst ht <;> simp

@[simp] theorem State.closeBlock_same (s : State) (b : OpenBlock) (c : CloseCause) :
    (s.closeBlock b c).rail33 = s.rail33 ∧ (s.closeBlock b c).rail09 = s.rail09
    ∧ (s.closeBlock b c).osc = s.osc ∧ (s.closeBlock b c).clock = s.clock
    ∧ (s.closeBlock b c).tb = s.tb ∧ (s.closeBlock b c).du = s.du
    ∧ (s.closeBlock b c).lines = s.lines ∧ (s.closeBlock b c).sqm = s.sqm
    ∧ (s.closeBlock b c).atu = s.atu ∧ (s.closeBlock b c).att = s.att
    ∧ (s.closeBlock b c).ctl = s.ctl ∧ (s.closeBlock b c).evt = s.evt
    ∧ (s.closeBlock b c).prt = s.prt ∧ (s.closeBlock b c).ep = s.ep
    ∧ (s.closeBlock b c).wire = s.wire ∧ (s.closeBlock b c).draws = s.draws
    ∧ (s.closeBlock b c).pending = s.pending := by
  generalize ht : s.closeBlock b c = t
  unfold State.closeBlock at ht; try dsimp only at ht
  (repeat' split at ht) <;> subst ht <;> simp

@[simp] theorem State.dropWrites_same (s : State) (c : Chain) :
    (s.dropWrites c).rail33 = s.rail33 ∧ (s.dropWrites c).rail09 = s.rail09
    ∧ (s.dropWrites c).osc = s.osc ∧ (s.dropWrites c).clock = s.clock ∧ (s.dropWrites c).tb = s.tb
    ∧ (s.dropWrites c).du = s.du ∧ (s.dropWrites c).lines = s.lines ∧ (s.dropWrites c).sqm = s.sqm
    ∧ (s.dropWrites c).atu = s.atu ∧ (s.dropWrites c).att = s.att ∧ (s.dropWrites c).ctl = s.ctl
    ∧ (s.dropWrites c).evt = s.evt ∧ (s.dropWrites c).cap = s.cap ∧ (s.dropWrites c).pst = s.pst
    ∧ (s.dropWrites c).prt = s.prt ∧ (s.dropWrites c).ep = s.ep ∧ (s.dropWrites c).wire = s.wire
    ∧ (s.dropWrites c).draws = s.draws ∧ (s.dropWrites c).pending = s.pending := by
  generalize ht : s.dropWrites c = t
  unfold State.dropWrites at ht; try dsimp only at ht
  (repeat' split at ht) <;> subst ht <;> simp

@[simp] theorem State.readFault_same (s : State) (c : Chain) :
    (s.readFault c).rail33 = s.rail33 ∧ (s.readFault c).rail09 = s.rail09
    ∧ (s.readFault c).osc = s.osc ∧ (s.readFault c).clock = s.clock ∧ (s.readFault c).tb = s.tb
    ∧ (s.readFault c).du = s.du ∧ (s.readFault c).lines = s.lines ∧ (s.readFault c).sqm = s.sqm
    ∧ (s.readFault c).atu = s.atu ∧ (s.readFault c).att = s.att ∧ (s.readFault c).pst = s.pst
    ∧ (s.readFault c).draws = s.draws ∧ (s.readFault c).pending = s.pending := by
  generalize ht : s.readFault c = t
  unfold State.readFault at ht; try dsimp only at ht
  (repeat' split at ht) <;> subst ht <;> simp

@[simp] theorem State.writeFault_same (s : State) (c : Chain) :
    (s.writeFault c).rail33 = s.rail33 ∧ (s.writeFault c).rail09 = s.rail09
    ∧ (s.writeFault c).osc = s.osc ∧ (s.writeFault c).clock = s.clock ∧ (s.writeFault c).tb = s.tb
    ∧ (s.writeFault c).du = s.du ∧ (s.writeFault c).lines = s.lines ∧ (s.writeFault c).sqm = s.sqm
    ∧ (s.writeFault c).atu = s.atu ∧ (s.writeFault c).att = s.att ∧ (s.writeFault c).draws = s.draws
    ∧ (s.writeFault c).pending = s.pending := by
  generalize ht : s.writeFault c = t
  unfold State.writeFault at ht; try dsimp only at ht
  (repeat' split at ht) <;> subst ht <;> simp

@[simp] theorem State.foldReadFault_same (s : State) (p : State → Chain → Prop) [∀ s c, Decidable (p s c)] (l : List Chain) :
    (l.foldl (fun s c => if p s c then s.readFault c else s) s).rail33 = s.rail33
    ∧ (l.foldl (fun s c => if p s c then s.readFault c else s) s).rail09 = s.rail09
    ∧ (l.foldl (fun s c => if p s c then s.readFault c else s) s).osc = s.osc
    ∧ (l.foldl (fun s c => if p s c then s.readFault c else s) s).clock = s.clock
    ∧ (l.foldl (fun s c => if p s c then s.readFault c else s) s).tb = s.tb
    ∧ (l.foldl (fun s c => if p s c then s.readFault c else s) s).du = s.du
    ∧ (l.foldl (fun s c => if p s c then s.readFault c else s) s).lines = s.lines
    ∧ (l.foldl (fun s c => if p s c then s.readFault c else s) s).sqm = s.sqm
    ∧ (l.foldl (fun s c => if p s c then s.readFault c else s) s).atu = s.atu
    ∧ (l.foldl (fun s c => if p s c then s.readFault c else s) s).att = s.att
    ∧ (l.foldl (fun s c => if p s c then s.readFault c else s) s).pst = s.pst
    ∧ (l.foldl (fun s c => if p s c then s.readFault c else s) s).draws = s.draws
    ∧ (l.foldl (fun s c => if p s c then s.readFault c else s) s).pending = s.pending := by
  induction l generalizing s with
  | nil => simp
  | cons a l ih =>
    simp only [List.foldl_cons]; have h := ih (if p s a then s.readFault a else s); simp_all [apply_ite]

@[simp] theorem State.foldWriteFault_same (s : State) (p : State → Chain → Prop) [∀ s c, Decidable (p s c)] (l : List Chain) :
    (l.foldl (fun s c => if p s c then s.writeFault c else s) s).rail33 = s.rail33
    ∧ (l.foldl (fun s c => if p s c then s.writeFault c else s) s).rail09 = s.rail09
    ∧ (l.foldl (fun s c => if p s c then s.writeFault c else s) s).osc = s.osc
    ∧ (l.foldl (fun s c => if p s c then s.writeFault c else s) s).clock = s.clock
    ∧ (l.foldl (fun s c => if p s c then s.writeFault c else s) s).tb = s.tb
    ∧ (l.foldl (fun s c => if p s c then s.writeFault c else s) s).du = s.du
    ∧ (l.foldl (fun s c => if p s c then s.writeFault c else s) s).lines = s.lines
    ∧ (l.foldl (fun s c => if p s c then s.writeFault c else s) s).sqm = s.sqm
    ∧ (l.foldl (fun s c => if p s c then s.writeFault c else s) s).atu = s.atu
    ∧ (l.foldl (fun s c => if p s c then s.writeFault c else s) s).att = s.att
    ∧ (l.foldl (fun s c => if p s c then s.writeFault c else s) s).draws = s.draws
    ∧ (l.foldl (fun s c => if p s c then s.writeFault c else s) s).pending = s.pending := by
  induction l generalizing s with
  | nil => simp
  | cons a l ih =>
    simp only [List.foldl_cons]; have h := ih (if p s a then s.writeFault a else s); simp_all [apply_ite]

@[simp] theorem State.failWrites_same (s : State) :
    (s.failWrites).rail33 = s.rail33 ∧ (s.failWrites).rail09 = s.rail09 ∧ (s.failWrites).osc = s.osc
    ∧ (s.failWrites).clock = s.clock ∧ (s.failWrites).tb = s.tb ∧ (s.failWrites).du = s.du
    ∧ (s.failWrites).lines = s.lines ∧ (s.failWrites).sqm = s.sqm ∧ (s.failWrites).atu = s.atu
    ∧ (s.failWrites).att = s.att ∧ (s.failWrites).draws = s.draws
    ∧ (s.failWrites).pending = s.pending := by
  generalize ht : s.failWrites = t
  unfold State.failWrites at ht; try dsimp only at ht
  (repeat' split at ht) <;> subst ht <;> simp [State.foldWriteFault_same]

@[simp] theorem State.failReads_same (s : State) (old : State) :
    (old.failReads s).rail33 = s.rail33 ∧ (old.failReads s).rail09 = s.rail09
    ∧ (old.failReads s).osc = s.osc ∧ (old.failReads s).clock = s.clock
    ∧ (old.failReads s).tb = s.tb ∧ (old.failReads s).du = s.du ∧ (old.failReads s).lines = s.lines
    ∧ (old.failReads s).sqm = s.sqm ∧ (old.failReads s).atu = s.atu ∧ (old.failReads s).att = s.att
    ∧ (old.failReads s).pst = s.pst ∧ (old.failReads s).draws = s.draws
    ∧ (old.failReads s).pending = s.pending := by
  generalize ht : old.failReads s = t
  unfold State.failReads at ht; try dsimp only at ht
  (repeat' split at ht) <;> subst ht <;> simp [State.foldReadFault_same]

@[simp] theorem State.busCheck_same (s : State) (old : State) :
    (old.busCheck s).rail33 = s.rail33 ∧ (old.busCheck s).rail09 = s.rail09
    ∧ (old.busCheck s).osc = s.osc ∧ (old.busCheck s).clock = s.clock ∧ (old.busCheck s).tb = s.tb
    ∧ (old.busCheck s).du = s.du ∧ (old.busCheck s).lines = s.lines ∧ (old.busCheck s).sqm = s.sqm
    ∧ (old.busCheck s).atu = s.atu ∧ (old.busCheck s).att = s.att ∧ (old.busCheck s).draws = s.draws
    ∧ (old.busCheck s).pending = s.pending := by
  generalize ht : old.busCheck s = t
  unfold State.busCheck at ht; try dsimp only at ht
  (repeat' split at ht) <;> subst ht <;> simp

@[simp] theorem State.discardRecords_same (s : State) :
    (s.discardRecords).rail33 = s.rail33 ∧ (s.discardRecords).rail09 = s.rail09
    ∧ (s.discardRecords).osc = s.osc ∧ (s.discardRecords).ctl = s.ctl
    ∧ (s.discardRecords).evt = s.evt ∧ (s.discardRecords).cap = s.cap
    ∧ (s.discardRecords).pst = s.pst ∧ (s.discardRecords).posted = s.posted
    ∧ (s.discardRecords).pending = s.pending := by
  generalize ht : s.discardRecords = t
  unfold State.discardRecords at ht; try dsimp only at ht
  (repeat' split at ht) <;> subst ht <;> simp

@[simp] theorem State.chainsEffect_same (s : State) :
    (s.chainsEffect).rail33 = s.rail33 ∧ (s.chainsEffect).rail09 = s.rail09
    ∧ (s.chainsEffect).osc = s.osc ∧ (s.chainsEffect).pending = s.pending := by
  generalize ht : s.chainsEffect = t
  unfold State.chainsEffect at ht; try dsimp only at ht
  (repeat' split at ht) <;> subst ht <;> simp

@[simp] theorem State.settleScope_same (s : State) :
    (s.settleScope).rail33 = s.rail33 ∧ (s.settleScope).rail09 = s.rail09
    ∧ (s.settleScope).osc = s.osc ∧ (s.settleScope).pending = s.pending := by
  generalize ht : s.settleScope = t
  unfold State.settleScope at ht; try dsimp only at ht
  (repeat' split at ht) <;> subst ht <;> simp

@[simp] theorem State.dropAuctionRecords_same (s : State) :
    (s.dropAuctionRecords).rail33 = s.rail33 ∧ (s.dropAuctionRecords).rail09 = s.rail09
    ∧ (s.dropAuctionRecords).osc = s.osc ∧ (s.dropAuctionRecords).clock = s.clock
    ∧ (s.dropAuctionRecords).tb = s.tb ∧ (s.dropAuctionRecords).du = s.du
    ∧ (s.dropAuctionRecords).lines = s.lines ∧ (s.dropAuctionRecords).atu = s.atu
    ∧ (s.dropAuctionRecords).att = s.att ∧ (s.dropAuctionRecords).ctl = s.ctl
    ∧ (s.dropAuctionRecords).evt = s.evt ∧ (s.dropAuctionRecords).cap = s.cap
    ∧ (s.dropAuctionRecords).pst = s.pst ∧ (s.dropAuctionRecords).prt = s.prt
    ∧ (s.dropAuctionRecords).ep = s.ep ∧ (s.dropAuctionRecords).posted = s.posted
    ∧ (s.dropAuctionRecords).wire = s.wire ∧ (s.dropAuctionRecords).draws = s.draws
    ∧ (s.dropAuctionRecords).pending = s.pending := by
  generalize ht : s.dropAuctionRecords = t
  unfold State.dropAuctionRecords at ht; try dsimp only at ht
  (repeat' split at ht) <;> subst ht <;> simp

@[simp] theorem State.resetAuctions_same (s : State) :
    (s.resetAuctions).rail33 = s.rail33 ∧ (s.resetAuctions).rail09 = s.rail09
    ∧ (s.resetAuctions).osc = s.osc ∧ (s.resetAuctions).clock = s.clock
    ∧ (s.resetAuctions).tb = s.tb ∧ (s.resetAuctions).du = s.du ∧ (s.resetAuctions).lines = s.lines
    ∧ (s.resetAuctions).att = s.att ∧ (s.resetAuctions).ctl = s.ctl ∧ (s.resetAuctions).evt = s.evt
    ∧ (s.resetAuctions).cap = s.cap ∧ (s.resetAuctions).pst = s.pst ∧ (s.resetAuctions).prt = s.prt
    ∧ (s.resetAuctions).ep = s.ep ∧ (s.resetAuctions).posted = s.posted
    ∧ (s.resetAuctions).wire = s.wire ∧ (s.resetAuctions).draws = s.draws
    ∧ (s.resetAuctions).pending = s.pending := by
  generalize ht : s.resetAuctions = t
  unfold State.resetAuctions at ht; try dsimp only at ht
  (repeat' split at ht) <;> subst ht <;> simp

@[simp] theorem State.resetAbandons_same (s : State) :
    (s.resetAbandons).rail33 = s.rail33 ∧ (s.resetAbandons).rail09 = s.rail09
    ∧ (s.resetAbandons).osc = s.osc ∧ (s.resetAbandons).ctl = s.ctl ∧ (s.resetAbandons).evt = s.evt
    ∧ (s.resetAbandons).cap = s.cap ∧ (s.resetAbandons).pst = s.pst
    ∧ (s.resetAbandons).posted = s.posted ∧ (s.resetAbandons).pending = s.pending := by
  generalize ht : s.resetAbandons = t
  unfold State.resetAbandons at ht; try dsimp only at ht
  (repeat' split at ht) <;> subst ht <;> simp [State.foldResetAbandon_same]

@[simp] theorem State.auctionsEffect_same (s : State) :
    (s.auctionsEffect).rail33 = s.rail33 ∧ (s.auctionsEffect).rail09 = s.rail09
    ∧ (s.auctionsEffect).osc = s.osc ∧ (s.auctionsEffect).ctl = s.ctl
    ∧ (s.auctionsEffect).evt = s.evt ∧ (s.auctionsEffect).cap = s.cap
    ∧ (s.auctionsEffect).pst = s.pst ∧ (s.auctionsEffect).posted = s.posted
    ∧ (s.auctionsEffect).pending = s.pending := by
  generalize ht : s.auctionsEffect = t
  unfold State.auctionsEffect at ht; try dsimp only at ht
  (repeat' split at ht) <;> subst ht <;> simp

@[simp] theorem State.settleAuctions_same (s : State) :
    (s.settleAuctions).rail33 = s.rail33 ∧ (s.settleAuctions).rail09 = s.rail09
    ∧ (s.settleAuctions).osc = s.osc ∧ (s.settleAuctions).ctl = s.ctl
    ∧ (s.settleAuctions).evt = s.evt ∧ (s.settleAuctions).cap = s.cap
    ∧ (s.settleAuctions).pst = s.pst ∧ (s.settleAuctions).posted = s.posted
    ∧ (s.settleAuctions).pending = s.pending := by
  generalize ht : s.settleAuctions = t
  unfold State.settleAuctions at ht; try dsimp only at ht
  (repeat' split at ht) <;> subst ht <;> simp

@[simp] theorem State.promise_same (s : State) (p : Promise) :
    (s.promise p).rail33 = s.rail33 ∧ (s.promise p).rail09 = s.rail09 ∧ (s.promise p).osc = s.osc
    ∧ (s.promise p).tb = s.tb ∧ (s.promise p).du = s.du ∧ (s.promise p).lines = s.lines
    ∧ (s.promise p).sqm = s.sqm ∧ (s.promise p).atu = s.atu ∧ (s.promise p).att = s.att
    ∧ (s.promise p).ctl = s.ctl ∧ (s.promise p).evt = s.evt ∧ (s.promise p).cap = s.cap
    ∧ (s.promise p).pst = s.pst ∧ (s.promise p).prt = s.prt ∧ (s.promise p).ep = s.ep
    ∧ (s.promise p).posted = s.posted ∧ (s.promise p).wire = s.wire ∧ (s.promise p).draws = s.draws
    ∧ (s.promise p).pending = s.pending := by
  generalize ht : s.promise p = t
  unfold State.promise at ht; try dsimp only at ht
  (repeat' split at ht) <;> subst ht <;> simp

@[simp] theorem State.runTimers_same (s : State) :
    (s.runTimers).rail33 = s.rail33 ∧ (s.runTimers).rail09 = s.rail09 ∧ (s.runTimers).osc = s.osc
    ∧ (s.runTimers).tb = s.tb ∧ (s.runTimers).du = s.du ∧ (s.runTimers).lines = s.lines
    ∧ (s.runTimers).att = s.att ∧ (s.runTimers).ctl = s.ctl ∧ (s.runTimers).evt = s.evt
    ∧ (s.runTimers).cap = s.cap ∧ (s.runTimers).pst = s.pst ∧ (s.runTimers).posted = s.posted
    ∧ (s.runTimers).draws = s.draws ∧ (s.runTimers).pending = s.pending := by
  generalize ht : s.runTimers = t
  unfold State.runTimers at ht; try dsimp only at ht
  (repeat' split at ht) <;> subst ht <;> simp

@[simp] theorem State.tickTimers_same (s : State) :
    (s.tickTimers).rail33 = s.rail33 ∧ (s.tickTimers).rail09 = s.rail09 ∧ (s.tickTimers).osc = s.osc
    ∧ (s.tickTimers).tb = s.tb ∧ (s.tickTimers).du = s.du ∧ (s.tickTimers).lines = s.lines
    ∧ (s.tickTimers).att = s.att ∧ (s.tickTimers).ctl = s.ctl ∧ (s.tickTimers).evt = s.evt
    ∧ (s.tickTimers).cap = s.cap ∧ (s.tickTimers).pst = s.pst ∧ (s.tickTimers).posted = s.posted
    ∧ (s.tickTimers).draws = s.draws ∧ (s.tickTimers).pending = s.pending := by
  generalize ht : s.tickTimers = t
  unfold State.tickTimers at ht; try dsimp only at ht
  (repeat' split at ht) <;> subst ht <;> simp

@[simp] theorem State.settleChains_same (s : State) :
    (s.settleChains).rail33 = s.rail33 ∧ (s.settleChains).rail09 = s.rail09
    ∧ (s.settleChains).osc = s.osc ∧ (s.settleChains).pending = s.pending := by
  generalize ht : s.settleChains = t
  unfold State.settleChains at ht; try dsimp only at ht
  (repeat' split at ht) <;> subst ht <;> simp

@[simp] theorem State.keepScope_same (s : State) :
    (s.keep State.settleScope).rail33 = s.rail33 ∧ (s.keep State.settleScope).rail09 = s.rail09
    ∧ (s.keep State.settleScope).osc = s.osc ∧ (s.keep State.settleScope).pending = s.pending := by
  generalize ht : s.keep State.settleScope = t
  unfold State.keep at ht; try dsimp only at ht
  (repeat' split at ht) <;> subst ht <;> simp

@[simp] theorem State.takeScope_same (s : State) :
    (s.takeScope).rail33 = s.rail33 ∧ (s.takeScope).rail09 = s.rail09 ∧ (s.takeScope).osc = s.osc
    ∧ (s.takeScope).pending = s.pending := by
  generalize ht : s.takeScope = t
  unfold State.takeScope at ht; try dsimp only at ht
  (repeat' split at ht) <;> subst ht <;> simp

@[simp] theorem State.keepFail_same (s : State) :
    (s.keep State.failWrites).rail33 = s.rail33 ∧ (s.keep State.failWrites).rail09 = s.rail09
    ∧ (s.keep State.failWrites).osc = s.osc ∧ (s.keep State.failWrites).pending = s.pending := by
  generalize ht : s.keep State.failWrites = t
  unfold State.keep at ht; try dsimp only at ht
  (repeat' split at ht) <;> subst ht <;> simp

@[simp] theorem State.keepChains_same (s : State) :
    (s.keep State.settleChains).rail33 = s.rail33 ∧ (s.keep State.settleChains).rail09 = s.rail09
    ∧ (s.keep State.settleChains).osc = s.osc ∧ (s.keep State.settleChains).pending = s.pending := by
  generalize ht : s.keep State.settleChains = t
  unfold State.keep at ht; try dsimp only at ht
  (repeat' split at ht) <;> subst ht <;> simp

@[simp] theorem State.settleRest_same (s : State) :
    (s.settleRest).rail33 = s.rail33 ∧ (s.settleRest).rail09 = s.rail09 ∧ (s.settleRest).osc = s.osc
    ∧ (s.settleRest).pending = s.pending := by
  generalize ht : s.settleRest = t
  unfold State.settleRest at ht; try dsimp only at ht
  (repeat' split at ht) <;> subst ht <;> simp

@[simp] theorem State.settle_same (s : State) :
    (s.settle).rail33 = s.rail33 ∧ (s.settle).rail09 = s.rail09 ∧ (s.settle).osc = s.osc
    ∧ (s.settle).pending = s.pending := by
  generalize ht : s.settle = t
  unfold State.settle at ht; try dsimp only at ht
  (repeat' split at ht) <;> subst ht <;> simp

@[simp] theorem State.append_same (s : State) (n : Nat) (r : Record) :
    (s.append n r).rail33 = s.rail33 ∧ (s.append n r).rail09 = s.rail09 ∧ (s.append n r).osc = s.osc
    ∧ (s.append n r).clock = s.clock ∧ (s.append n r).tb = s.tb ∧ (s.append n r).du = s.du
    ∧ (s.append n r).atu = s.atu ∧ (s.append n r).att = s.att ∧ (s.append n r).ctl = s.ctl
    ∧ (s.append n r).evt = s.evt ∧ (s.append n r).cap = s.cap ∧ (s.append n r).posted = s.posted
    ∧ (s.append n r).draws = s.draws ∧ (s.append n r).pending = s.pending := by
  generalize ht : s.append n r = t
  unfold State.append at ht; try dsimp only at ht
  (repeat' split at ht) <;> subst ht <;> simp

@[simp] theorem State.writeBack_same (s : State) (e : EngineEntry) (r : Record) :
    (s.writeBack e r).rail33 = s.rail33 ∧ (s.writeBack e r).rail09 = s.rail09
    ∧ (s.writeBack e r).osc = s.osc ∧ (s.writeBack e r).clock = s.clock
    ∧ (s.writeBack e r).tb = s.tb ∧ (s.writeBack e r).du = s.du ∧ (s.writeBack e r).lines = s.lines
    ∧ (s.writeBack e r).sqm = s.sqm ∧ (s.writeBack e r).atu = s.atu ∧ (s.writeBack e r).att = s.att
    ∧ (s.writeBack e r).ctl = s.ctl ∧ (s.writeBack e r).cap = s.cap ∧ (s.writeBack e r).pst = s.pst
    ∧ (s.writeBack e r).prt = s.prt ∧ (s.writeBack e r).ep = s.ep ∧ (s.writeBack e r).wire = s.wire
    ∧ (s.writeBack e r).draws = s.draws ∧ (s.writeBack e r).pending = s.pending := by
  generalize ht : s.writeBack e r = t
  unfold State.writeBack at ht; try dsimp only at ht
  (repeat' split at ht) <;> subst ht <;> simp

@[simp] theorem State.engineBody_same (s : State) (e : EngineEntry) :
    ((s.engineBody e).1).rail33 = s.rail33 ∧ ((s.engineBody e).1).rail09 = s.rail09
    ∧ ((s.engineBody e).1).osc = s.osc ∧ ((s.engineBody e).1).clock = s.clock
    ∧ ((s.engineBody e).1).tb = s.tb ∧ ((s.engineBody e).1).du = s.du
    ∧ ((s.engineBody e).1).lines = s.lines ∧ ((s.engineBody e).1).att = s.att
    ∧ ((s.engineBody e).1).ctl = s.ctl ∧ ((s.engineBody e).1).evt = s.evt
    ∧ ((s.engineBody e).1).cap = s.cap ∧ ((s.engineBody e).1).pst = s.pst
    ∧ ((s.engineBody e).1).prt = s.prt ∧ ((s.engineBody e).1).ep = s.ep
    ∧ ((s.engineBody e).1).posted = s.posted ∧ ((s.engineBody e).1).wire = s.wire
    ∧ ((s.engineBody e).1).draws = s.draws ∧ ((s.engineBody e).1).pending = s.pending := by
  generalize ht : (s.engineBody e).1 = t
  unfold State.engineBody at ht; try dsimp only at ht
  (repeat' split at ht) <;> subst ht <;> simp

@[simp] theorem State.releaseLine_same (s : State) (l : Fin 4) (e : FifoEntry) (rest : List FifoEntry) :
    (s.releaseLine l e rest).rail33 = s.rail33 ∧ (s.releaseLine l e rest).rail09 = s.rail09
    ∧ (s.releaseLine l e rest).osc = s.osc ∧ (s.releaseLine l e rest).clock = s.clock
    ∧ (s.releaseLine l e rest).tb = s.tb ∧ (s.releaseLine l e rest).du = s.du
    ∧ (s.releaseLine l e rest).att = s.att ∧ (s.releaseLine l e rest).ctl = s.ctl
    ∧ (s.releaseLine l e rest).evt = s.evt ∧ (s.releaseLine l e rest).cap = s.cap
    ∧ (s.releaseLine l e rest).posted = s.posted ∧ (s.releaseLine l e rest).draws = s.draws
    ∧ (s.releaseLine l e rest).pending = s.pending := by
  generalize ht : s.releaseLine l e rest = t
  unfold State.releaseLine at ht; try dsimp only at ht
  (repeat' split at ht) <;> subst ht <;> simp

@[simp] theorem State.releaseEngine_same (s : State) (e : EngineEntry) (rest : List EngineEntry) :
    (s.releaseEngine e rest).rail33 = s.rail33 ∧ (s.releaseEngine e rest).rail09 = s.rail09
    ∧ (s.releaseEngine e rest).osc = s.osc ∧ (s.releaseEngine e rest).clock = s.clock
    ∧ (s.releaseEngine e rest).tb = s.tb ∧ (s.releaseEngine e rest).du = s.du
    ∧ (s.releaseEngine e rest).att = s.att ∧ (s.releaseEngine e rest).ctl = s.ctl
    ∧ (s.releaseEngine e rest).cap = s.cap ∧ (s.releaseEngine e rest).draws = s.draws
    ∧ (s.releaseEngine e rest).pending = s.pending := by
  generalize ht : s.releaseEngine e rest = t
  unfold State.releaseEngine at ht; try dsimp only at ht
  (repeat' split at ht) <;> subst ht <;> simp

@[simp] theorem State.fillAttest_same (s : State) (a : Attest) (n : Nat) :
    ((s.fillAttest a n).1).rail33 = s.rail33 ∧ ((s.fillAttest a n).1).rail09 = s.rail09
    ∧ ((s.fillAttest a n).1).osc = s.osc ∧ ((s.fillAttest a n).1).clock = s.clock
    ∧ ((s.fillAttest a n).1).tb = s.tb ∧ ((s.fillAttest a n).1).du = s.du
    ∧ ((s.fillAttest a n).1).lines = s.lines ∧ ((s.fillAttest a n).1).sqm = s.sqm
    ∧ ((s.fillAttest a n).1).atu = s.atu ∧ ((s.fillAttest a n).1).ctl = s.ctl
    ∧ ((s.fillAttest a n).1).evt = s.evt ∧ ((s.fillAttest a n).1).cap = s.cap
    ∧ ((s.fillAttest a n).1).pst = s.pst ∧ ((s.fillAttest a n).1).prt = s.prt
    ∧ ((s.fillAttest a n).1).ep = s.ep ∧ ((s.fillAttest a n).1).posted = s.posted
    ∧ ((s.fillAttest a n).1).wire = s.wire ∧ ((s.fillAttest a n).1).draws = s.draws
    ∧ ((s.fillAttest a n).1).pending = s.pending := by
  generalize ht : (s.fillAttest a n).1 = t
  unfold State.fillAttest at ht; try dsimp only at ht
  (repeat' split at ht) <;> subst ht <;> simp

@[simp] theorem State.internalBody_same (s : State) (e : Internal) (n : Nat) :
    ((s.internalBody e n).1).rail33 = s.rail33 ∧ ((s.internalBody e n).1).rail09 = s.rail09
    ∧ ((s.internalBody e n).1).osc = s.osc ∧ ((s.internalBody e n).1).clock = s.clock
    ∧ ((s.internalBody e n).1).tb = s.tb ∧ ((s.internalBody e n).1).du = s.du
    ∧ ((s.internalBody e n).1).lines = s.lines ∧ ((s.internalBody e n).1).ctl = s.ctl
    ∧ ((s.internalBody e n).1).evt = s.evt ∧ ((s.internalBody e n).1).cap = s.cap
    ∧ ((s.internalBody e n).1).pst = s.pst ∧ ((s.internalBody e n).1).posted = s.posted
    ∧ ((s.internalBody e n).1).draws = s.draws ∧ ((s.internalBody e n).1).pending = s.pending := by
  generalize ht : (s.internalBody e n).1 = t
  unfold State.internalBody at ht; try dsimp only at ht
  (repeat' split at ht) <;> subst ht <;> simp

@[simp] theorem State.completeScopes_same (s : State) (b : Body) :
    (s.completeScopes b).rail33 = s.rail33 ∧ (s.completeScopes b).rail09 = s.rail09
    ∧ (s.completeScopes b).osc = s.osc ∧ (s.completeScopes b).clock = s.clock
    ∧ (s.completeScopes b).tb = s.tb ∧ (s.completeScopes b).du = s.du
    ∧ (s.completeScopes b).lines = s.lines ∧ (s.completeScopes b).sqm = s.sqm
    ∧ (s.completeScopes b).atu = s.atu ∧ (s.completeScopes b).att = s.att
    ∧ (s.completeScopes b).ctl = s.ctl ∧ (s.completeScopes b).evt = s.evt
    ∧ (s.completeScopes b).cap = s.cap ∧ (s.completeScopes b).pst = s.pst
    ∧ (s.completeScopes b).posted = s.posted ∧ (s.completeScopes b).draws = s.draws
    ∧ (s.completeScopes b).pending = s.pending := by
  generalize ht : s.completeScopes b = t
  unfold State.completeScopes at ht; try dsimp only at ht
  (repeat' split at ht) <;> subst ht <;> simp

@[simp] theorem State.releaseInternal_same (s : State) (e : Internal) (rest : List Internal) :
    (s.releaseInternal e rest).rail33 = s.rail33 ∧ (s.releaseInternal e rest).rail09 = s.rail09
    ∧ (s.releaseInternal e rest).osc = s.osc ∧ (s.releaseInternal e rest).clock = s.clock
    ∧ (s.releaseInternal e rest).tb = s.tb ∧ (s.releaseInternal e rest).du = s.du
    ∧ (s.releaseInternal e rest).ctl = s.ctl ∧ (s.releaseInternal e rest).evt = s.evt
    ∧ (s.releaseInternal e rest).cap = s.cap ∧ (s.releaseInternal e rest).posted = s.posted
    ∧ (s.releaseInternal e rest).draws = s.draws ∧ (s.releaseInternal e rest).pending = s.pending := by
  generalize ht : s.releaseInternal e rest = t
  unfold State.releaseInternal at ht; try dsimp only at ht
  (repeat' split at ht) <;> subst ht <;> simp

@[simp] theorem State.releaseHead_same (s : State) (src : Source) :
    (s.releaseHead src).rail33 = s.rail33 ∧ (s.releaseHead src).rail09 = s.rail09
    ∧ (s.releaseHead src).osc = s.osc ∧ (s.releaseHead src).clock = s.clock
    ∧ (s.releaseHead src).tb = s.tb ∧ (s.releaseHead src).du = s.du
    ∧ (s.releaseHead src).ctl = s.ctl ∧ (s.releaseHead src).cap = s.cap
    ∧ (s.releaseHead src).draws = s.draws ∧ (s.releaseHead src).pending = s.pending := by
  generalize ht : s.releaseHead src = t
  unfold State.releaseHead at ht; try dsimp only at ht
  (repeat' split at ht) <;> subst ht <;> simp

@[simp] theorem State.settleBoundary_same (s : State) :
    (s.settleBoundary).rail33 = s.rail33 ∧ (s.settleBoundary).rail09 = s.rail09
    ∧ (s.settleBoundary).osc = s.osc ∧ (s.settleBoundary).tb = s.tb ∧ (s.settleBoundary).du = s.du
    ∧ (s.settleBoundary).atu = s.atu ∧ (s.settleBoundary).ctl = s.ctl
    ∧ (s.settleBoundary).evt = s.evt ∧ (s.settleBoundary).cap = s.cap
    ∧ (s.settleBoundary).pst = s.pst ∧ (s.settleBoundary).prt = s.prt ∧ (s.settleBoundary).ep = s.ep
    ∧ (s.settleBoundary).posted = s.posted ∧ (s.settleBoundary).wire = s.wire
    ∧ (s.settleBoundary).draws = s.draws ∧ (s.settleBoundary).pending = s.pending := by
  generalize ht : s.settleBoundary = t
  unfold State.settleBoundary at ht; try dsimp only at ht
  (repeat' split at ht) <;> subst ht <;> simp

@[simp] theorem State.settleWork_same (s : State) :
    (s.settleWork).rail33 = s.rail33 ∧ (s.settleWork).rail09 = s.rail09 ∧ (s.settleWork).osc = s.osc
    ∧ (s.settleWork).ctl = s.ctl ∧ (s.settleWork).evt = s.evt ∧ (s.settleWork).cap = s.cap
    ∧ (s.settleWork).pst = s.pst ∧ (s.settleWork).posted = s.posted
    ∧ (s.settleWork).pending = s.pending := by
  generalize ht : s.settleWork = t
  unfold State.settleWork at ht; try dsimp only at ht
  (repeat' split at ht) <;> subst ht <;> simp

@[simp] theorem State.releaseUnder_same (s : State) (v : State) (src : Source) :
    (s.releaseUnder v src).rail33 = s.rail33 ∧ (s.releaseUnder v src).rail09 = s.rail09
    ∧ (s.releaseUnder v src).osc = s.osc ∧ (s.releaseUnder v src).clock = s.clock
    ∧ (s.releaseUnder v src).tb = s.tb ∧ (s.releaseUnder v src).du = s.du
    ∧ (s.releaseUnder v src).ctl = s.ctl ∧ (s.releaseUnder v src).cap = s.cap
    ∧ (s.releaseUnder v src).draws = s.draws ∧ (s.releaseUnder v src).pending = s.pending := by
  generalize ht : s.releaseUnder v src = t
  unfold State.releaseUnder at ht; try dsimp only at ht
  (repeat' split at ht) <;> subst ht <;> simp

@[simp] theorem State.releaseFrom_same (s : State) (src : Source) :
    (s.releaseFrom src).rail33 = s.rail33 ∧ (s.releaseFrom src).rail09 = s.rail09
    ∧ (s.releaseFrom src).osc = s.osc ∧ (s.releaseFrom src).tb = s.tb
    ∧ (s.releaseFrom src).du = s.du ∧ (s.releaseFrom src).ctl = s.ctl
    ∧ (s.releaseFrom src).cap = s.cap ∧ (s.releaseFrom src).draws = s.draws
    ∧ (s.releaseFrom src).pending = s.pending := by
  generalize ht : s.releaseFrom src = t
  unfold State.releaseFrom at ht; try dsimp only at ht
  (repeat' split at ht) <;> subst ht <;> simp

@[simp] theorem State.release_same (s : State) :
    (s.release).rail33 = s.rail33 ∧ (s.release).rail09 = s.rail09 ∧ (s.release).osc = s.osc
    ∧ (s.release).tb = s.tb ∧ (s.release).du = s.du ∧ (s.release).ctl = s.ctl
    ∧ (s.release).cap = s.cap ∧ (s.release).draws = s.draws ∧ (s.release).pending = s.pending := by
  generalize ht : s.release = t
  unfold State.release at ht; try dsimp only at ht
  (repeat' split at ht) <;> subst ht <;> simp

@[simp] theorem State.releaseNext_same (s : State) :
    (s.releaseNext).rail33 = s.rail33 ∧ (s.releaseNext).rail09 = s.rail09
    ∧ (s.releaseNext).osc = s.osc ∧ (s.releaseNext).ctl = s.ctl ∧ (s.releaseNext).cap = s.cap
    ∧ (s.releaseNext).pending = s.pending := by
  generalize ht : s.releaseNext = t
  unfold State.releaseNext at ht; try dsimp only at ht
  (repeat' split at ht) <;> subst ht <;> simp

@[simp] theorem State.sendWrites_same (s : State) :
    (s.sendWrites).rail33 = s.rail33 ∧ (s.sendWrites).rail09 = s.rail09 ∧ (s.sendWrites).osc = s.osc
    ∧ (s.sendWrites).clock = s.clock ∧ (s.sendWrites).tb = s.tb ∧ (s.sendWrites).du = s.du
    ∧ (s.sendWrites).lines = s.lines ∧ (s.sendWrites).sqm = s.sqm ∧ (s.sendWrites).atu = s.atu
    ∧ (s.sendWrites).att = s.att ∧ (s.sendWrites).ctl = s.ctl ∧ (s.sendWrites).evt = s.evt
    ∧ (s.sendWrites).cap = s.cap ∧ (s.sendWrites).pst = s.pst ∧ (s.sendWrites).prt = s.prt
    ∧ (s.sendWrites).ep = s.ep ∧ (s.sendWrites).draws = s.draws ∧ (s.sendWrites).pending = s.pending := by
  generalize ht : s.sendWrites = t
  unfold State.sendWrites at ht; try dsimp only at ht
  (repeat' split at ht) <;> subst ht <;> simp

@[simp] theorem State.placeRecord_same (s : State) (b : OpenBlock) (r : Record) :
    (s.placeRecord b r).rail33 = s.rail33 ∧ (s.placeRecord b r).rail09 = s.rail09
    ∧ (s.placeRecord b r).osc = s.osc ∧ (s.placeRecord b r).clock = s.clock
    ∧ (s.placeRecord b r).tb = s.tb ∧ (s.placeRecord b r).du = s.du
    ∧ (s.placeRecord b r).lines = s.lines ∧ (s.placeRecord b r).sqm = s.sqm
    ∧ (s.placeRecord b r).atu = s.atu ∧ (s.placeRecord b r).att = s.att
    ∧ (s.placeRecord b r).ctl = s.ctl ∧ (s.placeRecord b r).evt = s.evt
    ∧ (s.placeRecord b r).prt = s.prt ∧ (s.placeRecord b r).ep = s.ep
    ∧ (s.placeRecord b r).wire = s.wire ∧ (s.placeRecord b r).draws = s.draws
    ∧ (s.placeRecord b r).pending = s.pending := by
  generalize ht : s.placeRecord b r = t
  unfold State.placeRecord at ht; try dsimp only at ht
  (repeat' split at ht) <;> subst ht <;> simp

@[simp] theorem State.flush_same (s : State) :
    (s.flush).rail33 = s.rail33 ∧ (s.flush).rail09 = s.rail09 ∧ (s.flush).osc = s.osc
    ∧ (s.flush).clock = s.clock ∧ (s.flush).tb = s.tb ∧ (s.flush).du = s.du
    ∧ (s.flush).lines = s.lines ∧ (s.flush).sqm = s.sqm ∧ (s.flush).atu = s.atu
    ∧ (s.flush).att = s.att ∧ (s.flush).ctl = s.ctl ∧ (s.flush).evt = s.evt ∧ (s.flush).prt = s.prt
    ∧ (s.flush).ep = s.ep ∧ (s.flush).wire = s.wire ∧ (s.flush).draws = s.draws
    ∧ (s.flush).pending = s.pending := by
  generalize ht : s.flush = t
  unfold State.flush at ht; try dsimp only at ht
  (repeat' split at ht) <;> subst ht <;> simp

@[simp] theorem State.leaveCapture_same (s : State) :
    (s.leaveCapture).rail33 = s.rail33 ∧ (s.leaveCapture).rail09 = s.rail09
    ∧ (s.leaveCapture).osc = s.osc ∧ (s.leaveCapture).clock = s.clock ∧ (s.leaveCapture).tb = s.tb
    ∧ (s.leaveCapture).du = s.du ∧ (s.leaveCapture).lines = s.lines ∧ (s.leaveCapture).sqm = s.sqm
    ∧ (s.leaveCapture).atu = s.atu ∧ (s.leaveCapture).att = s.att ∧ (s.leaveCapture).pst = s.pst
    ∧ (s.leaveCapture).prt = s.prt ∧ (s.leaveCapture).ep = s.ep ∧ (s.leaveCapture).posted = s.posted
    ∧ (s.leaveCapture).wire = s.wire ∧ (s.leaveCapture).draws = s.draws
    ∧ (s.leaveCapture).pending = s.pending := by
  generalize ht : s.leaveCapture = t
  unfold State.leaveCapture at ht; try dsimp only at ht
  (repeat' split at ht) <;> subst ht <;> simp

@[simp] theorem State.ignoreCommand_same (s : State) (c : Chain) :
    (s.ignoreCommand c).rail33 = s.rail33 ∧ (s.ignoreCommand c).rail09 = s.rail09
    ∧ (s.ignoreCommand c).osc = s.osc ∧ (s.ignoreCommand c).clock = s.clock
    ∧ (s.ignoreCommand c).tb = s.tb ∧ (s.ignoreCommand c).du = s.du
    ∧ (s.ignoreCommand c).lines = s.lines ∧ (s.ignoreCommand c).sqm = s.sqm
    ∧ (s.ignoreCommand c).atu = s.atu ∧ (s.ignoreCommand c).att = s.att
    ∧ (s.ignoreCommand c).pst = s.pst ∧ (s.ignoreCommand c).prt = s.prt
    ∧ (s.ignoreCommand c).ep = s.ep ∧ (s.ignoreCommand c).posted = s.posted
    ∧ (s.ignoreCommand c).wire = s.wire ∧ (s.ignoreCommand c).draws = s.draws
    ∧ (s.ignoreCommand c).pending = s.pending := by
  generalize ht : s.ignoreCommand c = t
  unfold State.ignoreCommand at ht; try dsimp only at ht
  (repeat' split at ht) <;> subst ht <;> simp

end Sys2Proof.Machine
end

