-- ==== Sys2Proof/Laws/Ready.lean ====
section
/-!
SUPPORT. A command that meets a part at work with nothing left to do (`State.ready`): what the wrappers
of Machine/ChainOps.lean then come to, and that accesses which the endpoint carries do not fail.
-/

namespace Sys2Proof.Machine

open Sys2Proof

/-! ## Nothing is left to do -/

/-- With nothing left to do, the prologue of a command changes nothing. -/
theorem State.settle_eq {s : State} (h : s.still = true) : s.settle = s := by
  simp [State.settle, h]

theorem State.still_of_quiescent {s : State} (h : s.quiescent = true) : s.still = true := by
  simp_all [State.quiescent]

theorem State.owed_of_quiescent {s : State} (h : s.quiescent = true) : s.owed = false := by
  simp_all [State.quiescent]

/-- With nothing read of work still to be done, a command comes before that work. -/
theorem State.keep_eq {s : State} (h : s.owed = false) (k : State → State) : s.keep k = k s := by
  simp [State.keep, h]

theorem State.owed_eq_false {s : State} (h : s.workDue = false) : s.owed = false := by
  simp [State.owed, h]

/-- A kept effect comes before the work of the period or after it. -/
theorem State.keep_cases (s : State) (k : State → State) : s.keep k = k s ∨ s.keep k = k s.done := by
  unfold State.keep
  split
  · exact .inr rfl
  · exact .inl rfl

theorem State.act_eq {s : State} (h : s.quiescent = true) (k : State → State) : s.act k = k s := by
  rw [State.act, State.settle_eq (State.still_of_quiescent h), State.keep_eq (State.owed_of_quiescent h)]

theorem State.actIO_eq {s : State} (h : s.quiescent = true) (k : State → State) :
    s.actIO k = s.busCheck (k s) := State.act_eq h _

theorem State.settleRest_eq {s : State} (h : s.settled = true) : s.settleRest = s := by
  simp [State.settleRest, h]

/-- What is settled but for writes that can go out sends these and does nothing else. -/
theorem State.settle_eq_sendPlain {s : State} (h : s.settled = true) (hs : s.ep.sends = true) :
    s.settle = if s.plainDue then s.sendPlain else s := by
  cases hp : s.plainDue
  · simp [State.settle, State.still, h, hp]
  · have hr : s.sendPlain.settled = true := by
      have hw : s.sendPlain.writesFail = false := by simp [State.writesFail, hs]
      have hw' : s.writesFail = false := by simp [State.writesFail, hs]
      simp only [State.settled, hw', hw] at h ⊢
      exact h
    simp [State.settle, State.still, hp, hs, State.settleRest_eq hr]

theorem portedIO_of_ready {s : State} (h : s.ready) (k : State → State) :
    portedIO s k = .next (s.busCheck (k s)) := by
  simp [portedIO, h.1, State.actIO_eq h.2.2]

theorem windowed_of_served {s : State} (h : s.served) (k : State → State) : windowed s k = .next (k s) := by
  simp [windowed, h.1.1, Endpoint.seen, h.2.1, h.2.2, State.act_eq h.1.2.2]

theorem windowedIO_of_served {s : State} (h : s.served) (k : State → State) :
    windowedIO s k = .next (s.busCheck (k s)) := by
  simp [windowedIO, h.1.1, Endpoint.seen, h.2.1, h.2.2, State.actIO_eq h.1.2.2]

theorem linked_of_served {s : State} (h : s.served) (k : State → State) :
    linked s k = .next (k s) := by
  simp [linked, h.1.1, h.2.1, State.act_eq h.1.2.2]

theorem ticked_of_ready {s : State} (h : s.ready) (k : State → State) : ticked s k = .next (k s) := by
  simp [ticked, h.1, h.2.1, State.act_eq h.2.2]

theorem tickedIO_of_ready {s : State} (h : s.ready) (k : State → State) :
    tickedIO s k = .next (s.busCheck (k s)) := by
  simp [tickedIO, h.1, h.2.1, State.actIO_eq h.2.2]

/-- Held in power-on, the part takes no command (R188). -/
theorem portedIO_of_held {s : State} (h : s.powered = false) (k : State → State) :
    portedIO s k = .next s := by
  simp [portedIO, h]

/-- Nor does the host see the window while the link is down or the endpoint not configured (R188). -/
theorem Endpoint.seen_eq_false {e : Endpoint} (h : e.linkUp = false ∨ e.configured = false) :
    e.seen = false := by
  rcases h with h | h <;> simp [Endpoint.seen, h]

theorem windowed_of_unseen {s : State} (h : s.ep.seen = false) (k : State → State) :
    windowed s k = .next s := by
  simp [windowed, h]

theorem windowedIO_of_unseen {s : State} (h : s.ep.seen = false) (k : State → State) :
    windowedIO s k = .next s := by
  simp [windowedIO, h]

/-- The configuration space is out of reach while the link is down (R188). -/
theorem linked_of_down {s : State} (h : s.ep.linkUp = false) (k : State → State) :
    linked s k = .next s := by
  simp [linked, h]

/-- With the oscillator stopped nothing takes a stamp (R190). -/
theorem ticked_of_stopped {s : State} (h : s.osc = false) (k : State → State) : ticked s k = .next s := by
  simp [ticked, h]

theorem tickedIO_of_stopped {s : State} (h : s.osc = false) (k : State → State) :
    tickedIO s k = .next s := by
  simp [tickedIO, h]

/-! ## What the work of a period leaves -/

/-- The work of a period leaves the endpoint as able to carry accesses as it was. -/
theorem State.left_carries {s : State} (h : s.carries) : s.left.carries := by
  simpa [State.carries] using h

theorem State.acted_carries {s : State} (h : s.carries) : s.acted.carries := by
  simpa [State.carries] using h

theorem State.done_carries {s : State} (h : s.carries) : s.done.carries := by
  simpa [State.carries] using h

/-- To read now changes nothing but the mark of it, and reading it twice is reading it once. -/
@[simp] theorem State.reading_now (s : State) : s.reading.now = s.now := rfl

@[simp] theorem State.reading_reading (s : State) : s.reading.reading = s.reading := rfl

/-- With no work due, there is nothing to do first. -/
theorem State.done_eq {s : State} (h : s.workDue = false) : s.done = s := by
  simp [State.done, h]

theorem State.left_eq {s : State} (h : s.workDue = false) : s.left = s.reading := by
  simp [State.left, State.done_eq h]

theorem State.atInstant_eq {s : State} (h : s.workDue = false) : s.atInstant = s := by
  simp [State.atInstant, State.left_eq h]

theorem State.acted_eq {s : State} (h : s.actionDue = false) : s.acted = s.reading := by
  simp [State.acted, h]

/-- Nothing is promised of work that is not due. -/
theorem State.promise_eq {s : State} (h : s.workDue = false) (p : Promise) : s.promise p = s := by
  simp [State.promise, h]

/-- Some head is released next where one is releasable. -/
theorem State.nextRelease_isSome {s : State} {src : Source} (h : s.releasable src = true) :
    s.nextRelease.isSome = true := by
  have hm : src ∈ allSources := by
    rcases src with l | _ | _
    · fin_cases l <;> simp [allSources, rankedSources]
    · simp [allSources, rankedSources]
    · simp [allSources]
  exact List.find?_isSome.2 ⟨src, hm, h⟩

/-- A release with no boundary and no work to come first. -/
theorem execRelease_of_releases {s : State} {src : Source} (h : s.releases src) :
    execRelease s = .next (s.busCheck s.release) := by
  obtain ⟨hr, hb, hw, -, -⟩ := h
  unfold execRelease
  rw [tickedIO_of_ready hr]
  simp [State.releaseNext, State.settleBoundary, State.boundaryFirst, State.settleWork, hb, hw]

/-! ## Accesses that the endpoint carries -/

/-- Over a link that is up, with bus mastering enabled, the endpoint sends (R182). -/
theorem Endpoint.sends_of_carries {s : State} (h : s.carries) : s.ep.sends = true := by
  simp [Endpoint.sends, h.1, h.2]

theorem State.failWrites_of_sends {s : State} (h : s.ep.sends = true) : s.failWrites = s := by
  simp [State.failWrites, State.writesFail, h]

/-- No access fails at its issue where the endpoint carries accesses (R182). -/
theorem State.busCheck_of_carries {s : State} (old : State) (h : s.carries) : old.busCheck s = s := by
  simp [State.busCheck, State.failWrites_of_sends (Endpoint.sends_of_carries h), State.failReads, h.2]

/-- A chain that stands where it stood has issued no read. -/
theorem ChainCtx.issues_self (x : ChainCtx) : x.issues x = false := by
  cases h : x.readOpen <;> simp [ChainCtx.issues, h]

/-- A command that issues no access passes the check of its accesses unchanged. -/
theorem State.busCheck_of_same {old s : State} (hp : s.posted = old.posted) (he : s.ep.sends = old.ep.sends)
    (hc : ∀ c, s.ctx c = old.ctx c) (hw : old.writesFail = false) : old.busCheck s = s := by
  have h1 : s.failWrites = s := by
    have : s.writesFail = false := by simpa [State.writesFail, hp, he] using hw
    simp [State.failWrites, this]
  have h2 : ∀ l : List Chain,
      l.foldl (fun s c => if (old.ctx c).issues (s.ctx c) then s.readFault c else s) s = s := by
    intro l
    induction l with
    | nil => rfl
    | cons c l ih =>
      rw [List.foldl_cons, hc c, ChainCtx.issues_self]
      simpa using ih
  unfold State.busCheck
  rw [h1]
  unfold State.failReads
  split
  · rfl
  · exact h2 _

/-- CHE issues its writes while no CHAINS scope keeps it from doing so (R186). -/
theorem State.post_eq {s : State} (h : s.prt.chains ≠ .waitDone) (ws : List HostWrite) :
    s.post ws = { s with posted := s.posted ++ ws } := by
  have : s.halted = false := by
    unfold State.halted
    cases hc : s.prt.chains <;> simp_all
  simp [State.post, this]

theorem State.halted_eq_false {s : State} (h : s.prt.chains ≠ .waitDone) : s.halted = false := by
  unfold State.halted
  cases hc : s.prt.chains <;> simp_all

end Sys2Proof.Machine
end

