-- ==== Sys2Proof/Laws/Passed.lean ====
section
/-!
SUPPORT. What a move of the counter does to ATU: the timers of each group and each alarm that it passes over
(R114, R120).
-/

namespace Sys2Proof.Machine

open Sys2Proof

/-! ## Group records in the agenda -/

/-- A created record changes no group and no alarm. -/
@[simp] theorem State.create_group (s : State) (stamp : Stamp) (cls : TraceClass) (n : Nat) (a b : Bool)
    (body : Body) (g : Fin 64) : (s.create stamp cls n a b body).group g = s.group g := rfl

@[simp] theorem State.create_alarm (s : State) (stamp : Stamp) (cls : TraceClass) (n : Nat) (a b : Bool)
    (body : Body) (k : Fin 8) : (s.create stamp cls n a b body).alarm k = s.alarm k := rfl

/-- A group's record is never merged (R87). -/
theorem Body.sameClass_of_isGroup {a b : Body} (h : b.isGroup = true) : a.sameClass b = false := by
  cases b <;> cases a <;> simp_all [Body.isGroup, Body.kindRank, Body.sameClass]

/-- A group's record that is created joins the agenda, and no other entry changes. -/
theorem State.mem_create_of_isGroup (s : State) (stamp : Stamp) (cls : TraceClass) (group : Nat)
    (late stepped : Bool) {body : Body} (h : body.isGroup = true) (x : Internal) :
    x ∈ (s.create stamp cls group late stepped body).sqm.agenda ↔
      x = { stamp := stamp, cls := cls, group := group, late := late, steppedOver := stepped,
            coalesced := false, count := 1, order := s.sqm.created, body := body } ∨ x ∈ s.sqm.agenda := by
  unfold State.create arrive
  have hn : (s.sqm.agenda.any fun w => w.body.sameClass body) = false := by
    simp [Body.sameClass_of_isGroup h]
  simp [hn, mem_insertAgenda]

/-- The entries of groups stay in the agenda whatever arrives. -/
theorem State.mem_create_group {s : State} {stamp : Stamp} {cls : TraceClass} {group : Nat}
    {late stepped : Bool} {body : Body} {x : Internal} (hx : x.body.isGroup = true) (hm : x ∈ s.sqm.agenda) :
    x ∈ (s.create stamp cls group late stepped body).sqm.agenda := by
  unfold State.create arrive
  split
  · refine List.mem_map.mpr ⟨x, hm, ?_⟩
    rw [Body.sameClass_symm, Body.sameClass_of_isGroup hx]; rfl
  · exact mem_insertAgenda.mpr (.inr hm)

/-! ## Timers passed over (R114) -/

/-- A group with its timers passed over. -/
def Group.passedTo (pre post : Instant) (epoch : Nat) (x : Group) : Group :=
  let call := passed pre post x.callOpen x.callTimer
  let window := passed pre post x.close x.windowTimer
  let close := match x.drawn with | some t => passed pre post t.instant x.closeTimer | none => false
  { x with
    callTimer := x.callTimer && !call, windowTimer := x.windowTimer && !window
    closeTimer := x.closeTimer && !close
    passedOver := if call || window || close then some (post.at epoch) else x.passedOver }

theorem State.passGroup_group (pre post : Instant) (s : State) (g : Fin 64) :
    (s.passGroup pre post g).group g = (s.group g).passedTo pre post s.tb.epoch := by
  obtain ⟨x, hx⟩ : ∃ x, s.group g = x := ⟨_, rfl⟩
  unfold State.passGroup Group.passedTo State.runCallOpen State.runWindow State.runClose State.createClose
  simp only [hx]
  generalize passed pre post x.callOpen x.callTimer = c
  generalize passed pre post x.close x.windowTimer = w
  obtain ⟨b, hb⟩ : ∃ b, (match x.drawn with
      | some t => passed pre post t.instant x.closeTimer | none => false) = b := ⟨_, rfl⟩
  simp only [hb]
  cases x
  cases c <;> cases w <;> cases b <;> simp_all <;> (try split at hb) <;> simp_all

theorem State.passGroup_group_ne (pre post : Instant) (s : State) {g k : Fin 64} (h : k ≠ g) :
    (s.passGroup pre post g).group k = s.group k := by
  unfold State.passGroup State.runCallOpen State.runWindow State.runClose State.createClose
  dsimp only
  repeat' split
  all_goals simp [State.setGroup_group_ne _ _ h]

theorem State.passGroup_alarm (pre post : Instant) (s : State) (g : Fin 64) (a : Fin 8) :
    (s.passGroup pre post g).alarm a = s.alarm a := by
  unfold State.passGroup State.runCallOpen State.runWindow State.runClose State.createClose
  dsimp only
  repeat' split
  all_goals simp

/-- A group's entry `x` still waits in `t` if it waited in `s`. -/
abbrev State.keepsGroups (s t : State) : Prop :=
  ∀ x : Internal, x.body.isGroup = true → x ∈ s.sqm.agenda → x ∈ t.sqm.agenda

theorem State.keepsGroups_create (s : State) (stamp : Stamp) (cls : TraceClass) (n : Nat) (a b : Bool)
    (body : Body) : s.keepsGroups (s.create stamp cls n a b body) := fun _ hx hm =>
  State.mem_create_group hx hm

theorem State.keepsGroups_runCallOpen (s : State) (g : Fin 64) (n : Nat) (cls : TraceClass) (a b : Bool) :
    s.keepsGroups (s.runCallOpen g n cls a b) := fun _ hx hm => State.mem_create_group hx (by simpa using hm)

theorem State.keepsGroups_runWindow (s : State) (g : Fin 64) (cls : TraceClass) (b : Bool) :
    s.keepsGroups (s.runWindow g cls b) := fun _ hx hm => State.mem_create_group hx (by simpa using hm)

theorem State.keepsGroups_runClose (s : State) (g : Fin 64) (cls : TraceClass) (b : Bool) :
    s.keepsGroups (s.runClose g cls b) := by
  intro x hx hm
  unfold State.runClose
  split
  · exact State.mem_create_group hx (by simpa using hm)
  · exact hm

/-- A record created for a passed timer waits (R114). -/
theorem State.steppedRecord_create (s : State) (g : Fin 64) (stamp : Stamp) (cls : TraceClass) {body : Body}
    (h : body.isGroup = true) : (s.create stamp cls g.val false true body).steppedRecord g stamp cls body :=
  ⟨_, (State.mem_create_of_isGroup s stamp cls g.val false true h _).mpr (.inl rfl), rfl, rfl, rfl, rfl, rfl, rfl⟩

/-- What passing a group's timers over leaves in the agenda: every group record that waited, and a record
for each timer passed. -/
theorem State.passGroup_records (pre post : Instant) (s : State) (g : Fin 64) :
    let x := s.group g
    let t := s.passGroup pre post g
    s.keepsGroups t
      ∧ (passed pre post x.callOpen x.callTimer = true →
          t.steppedRecord g (x.callOpen.at s.tb.epoch) s.du.cls (.phase false))
      ∧ (passed pre post x.close x.windowTimer = true →
          t.steppedRecord g (x.close.at s.tb.epoch) s.du.cls (.window 0 0 none))
      ∧ ∀ d : Stamp, x.drawn = some d → passed pre post d.instant x.closeTimer = true →
          t.steppedRecord g d s.du.cls (.close d 0 0 0) := by
  intro x t
  have move : ∀ {a b : State} {st : Stamp} {bd : Body}, bd.isGroup = true → a.keepsGroups b →
      a.steppedRecord g st s.du.cls bd → b.steppedRecord g st s.du.cls bd := by
    rintro a b st bd hb hk ⟨e, he, h1, h2, h3, h4, h5, h6⟩
    exact ⟨e, hk e (h6 ▸ hb) he, h1, h2, h3, h4, h5, h6⟩
  obtain ⟨s1, e1⟩ : ∃ s1, s1 = (if passed pre post x.callOpen x.callTimer then
      s.runCallOpen g s.tb.epoch s.du.cls false true else s) := ⟨_, rfl⟩
  obtain ⟨s2, e2⟩ : ∃ s2, s2 = (if passed pre post x.close x.windowTimer then
      s1.runWindow g s1.du.cls true else s1) := ⟨_, rfl⟩
  obtain ⟨s3, e3⟩ : ∃ s3, s3 = (if (match x.drawn with
      | some t => passed pre post t.instant x.closeTimer | none => false) then
      s2.runClose g s2.du.cls true else s2) := ⟨_, rfl⟩
  have ht : t.sqm = s3.sqm := by
    have h : t = if (passed pre post x.callOpen x.callTimer || passed pre post x.close x.windowTimer
          || match x.drawn with | some t => passed pre post t.instant x.closeTimer | none => false) = true then
        s3.setGroup g { s3.group g with passedOver := some (post.at s3.tb.epoch) } else s3 := by
      subst e3 e2 e1; rfl
    rw [h, apply_ite State.sqm]
    exact ite_self _
  have k1 : s.keepsGroups s1 := by
    rw [e1]; split
    · exact State.keepsGroups_runCallOpen s g _ _ _ _
    · exact fun _ _ h => h
  have k2 : s1.keepsGroups s2 := by
    rw [e2]; split
    · exact State.keepsGroups_runWindow s1 g _ _
    · exact fun _ _ h => h
  have k3 : s2.keepsGroups s3 := by
    have h : ∀ b : Bool, s2.keepsGroups (if b then s2.runClose g s2.du.cls true else s2) := by
      intro b; cases b
      · exact fun _ _ h => h
      · exact State.keepsGroups_runClose s2 g _ _
    rw [e3]; exact h _
  have d1 : s1.du = s.du ∧ s1.tb = s.tb := by rw [e1]; split <;> simp [State.runCallOpen]
  have d2 : s2.du = s.du ∧ s2.tb = s.tb := by rw [e2]; split <;> simp [State.runWindow, d1]
  have x1 : (s1.group g).close = x.close ∧ (s1.group g).drawn = x.drawn := by
    rw [e1]; split <;> simp [State.runCallOpen, x]
  have x2 : (s2.group g).drawn = x.drawn := by
    rw [e2]; split <;> simp [State.runWindow, x1]
  have k4 : s3.keepsGroups t := fun e _ he => by rw [ht]; exact he
  refine ⟨fun e he hm => k4 e he (k3 e he (k2 e he (k1 e he hm))), fun h => ?_, fun h => ?_, fun d hd h => ?_⟩
  · refine move rfl k4 (move rfl k3 (move rfl k2 ?_))
    rw [e1, if_pos h]
    exact State.steppedRecord_create _ g _ _ rfl
  · refine move rfl k4 (move rfl k3 ?_)
    rw [e2, if_pos h, ← d1.1, ← d1.2, ← x1.1]
    exact State.steppedRecord_create _ g _ _ rfl
  · refine move rfl k4 ?_
    rw [e3, if_pos (by simpa [hd] using h)]
    unfold State.runClose
    rw [x2, hd, d2.1]
    exact State.steppedRecord_create _ g _ _ rfl

/-! ## The fold over the groups -/

/-- A fold over groups that each changes its own entry: the entry of `k` is changed once. -/
theorem foldl_group {f : State → Fin 64 → State} {r : Nat → TraceClass → Group → Group}
    (hself : ∀ s g, (f s g).group g = r s.tb.epoch s.du.cls (s.group g))
    (hother : ∀ s g k, k ≠ g → (f s g).group k = s.group k)
    (htb : ∀ s g, (f s g).tb = s.tb) (hdu : ∀ s g, (f s g).du = s.du) (k : Fin 64) :
    ∀ (l : List (Fin 64)) (s : State), l.Nodup →
      (l.foldl f s).group k = if k ∈ l then r s.tb.epoch s.du.cls (s.group k) else s.group k := by
  intro l
  induction l with
  | nil => intro s _; rfl
  | cons g l ih =>
    intro s hn
    obtain ⟨hg, hn⟩ := List.nodup_cons.mp hn
    rw [List.foldl_cons, ih _ hn, htb, hdu]
    by_cases hk : k = g
    · subst hk; simp [hg, hself]
    · simp [hother _ _ _ hk, hk]

/-- What such a fold leaves in the agenda: what each group puts there, `P` of the group as it stood. -/
theorem foldl_records {f : State → Fin 64 → State} {P : Nat → TraceClass → Fin 64 → Group → State → Prop}
    (hput : ∀ s g, P s.tb.epoch s.du.cls g (s.group g) (f s g))
    (hkeep : ∀ s g, State.keepsGroups s (f s g))
    (hmono : ∀ n cls g x a b, State.keepsGroups a b → P n cls g x a → P n cls g x b)
    (hother : ∀ s g k, k ≠ g → (f s g).group k = s.group k)
    (htb : ∀ s g, (f s g).tb = s.tb) (hdu : ∀ s g, (f s g).du = s.du) :
    ∀ (l : List (Fin 64)) (s : State), l.Nodup →
      s.keepsGroups (l.foldl f s) ∧ ∀ k ∈ l, P s.tb.epoch s.du.cls k (s.group k) (l.foldl f s) := by
  intro l
  induction l with
  | nil => exact fun s _ => ⟨fun _ _ h => h, fun k hk => absurd hk List.not_mem_nil⟩
  | cons g l ih =>
    intro s hn
    obtain ⟨hg, hn⟩ := List.nodup_cons.mp hn
    obtain ⟨hk, hp⟩ := ih (f s g) hn
    refine ⟨fun x hx hm => hk x hx (hkeep s g x hx hm), fun k hkm => ?_⟩
    rw [List.foldl_cons]
    rcases List.mem_cons.mp hkm with rfl | hkl
    · exact hmono _ _ _ _ _ _ hk (hput s k)
    · have := hp k hkl
      rwa [htb, hdu, hother _ _ _ (by rintro rfl; exact hg hkl)] at this

/-! ## Alarms passed over (R120) -/

theorem State.passAlarm_group (pre post : Instant) (s : State) (a : Fin 8) (g : Fin 64) :
    (s.passAlarm pre post a).group g = s.group g := by
  unfold State.passAlarm; (repeat' split) <;> rfl

theorem State.passAlarm_alarm_ne (pre post : Instant) (s : State) {a k : Fin 8} (h : k ≠ a) :
    (s.passAlarm pre post a).alarm k = s.alarm k := by
  unfold State.passAlarm; (repeat' split) <;> first | rfl | exact State.setAlarm_alarm_ne _ _ h

theorem State.passAlarm_keeps (pre post : Instant) (s : State) (a : Fin 8) :
    s.keepsGroups (s.passAlarm pre post a) := by
  unfold State.passAlarm
  (repeat' split) <;> intro x hx hm <;> first | exact hm | exact State.mem_create_group hx hm

/-- What an alarm passed over comes to, as the statements spell it. -/
theorem State.passAlarm_spec (pre post : Instant) (s : State) (a : Fin 8) (x : Alarm) (h : s.alarm a = some x)
    (hc : Instant.crossed pre post x.next = true) :
    let t := s.passAlarm pre post a
    t.alarm a = (if x.period = 0 then none
      else some { x with next := x.next.add (x.count post * msToNs x.period), late := false })
      ∧ t.prt.notice.getLsbD 11 = true
      ∧ ((∀ e ∈ s.sqm.agenda, ∀ m, e.body ≠ .alarm a.val m) → ∃ e ∈ t.sqm.agenda,
          e.stamp = x.next.at s.tb.epoch ∧ e.cls = s.du.cls ∧ e.late = false ∧ e.steppedOver = true
            ∧ e.body = .alarm a.val (min Config.count16 (x.count post - 1))) := by
  intro t
  have ht : t = ((s.setAlarm a (if x.period = 0 then none
          else some { x with next := x.next.add (x.count post * msToNs x.period), late := false })).create
        (x.next.at s.tb.epoch) s.du.cls 255 false true
          (.alarm a.val (min Config.count16 (x.count post - 1)))).notify .alarm := by
    simp only [t, State.passAlarm, h, hc, if_true]
  refine ⟨?_, ?_, fun hn => ?_⟩
  · rw [ht]; exact State.setAlarm_alarm _ _ _
  · rw [ht]; simp only [State.notify_prt, BitVec.getLsbD_or, Bool.or_eq_true]; exact .inr (by decide)
  · rw [ht]
    have hf : ∀ n : Nat, (s.sqm.agenda.any fun w => w.body.sameClass (.alarm a.val n)) = false := by
      intro n
      simp only [List.any_eq_false]
      intro e he
      have := hn e he
      cases hb : e.body <;> simp [Body.sameClass]
      rename_i i m
      intro hi; exact this m (by rw [hb, hi])
    have hm : ∀ e : Internal, e.body = .alarm a.val (min Config.count16 (x.count post - 1)) →
        e ∈ arrive e s.sqm.agenda := by
      intro e he
      unfold arrive
      rw [he, hf]
      exact mem_insertAgenda.mpr (.inl rfl)
    exact ⟨_, hm _ rfl, rfl, rfl, rfl, rfl, rfl⟩

/-! ## Every timer in the skipped span (R19) -/

theorem foldPassAlarm_group (pre post : Instant) (g : Fin 64) (l : List (Fin 8)) :
    ∀ s : State, (l.foldl (State.passAlarm pre post) s).group g = s.group g := by
  induction l with
  | nil => exact fun _ => rfl
  | cons a l ih => exact fun s => (ih _).trans (State.passAlarm_group pre post s a g)

theorem foldPassAlarm_keeps (pre post : Instant) (l : List (Fin 8)) :
    ∀ s : State, s.keepsGroups (l.foldl (State.passAlarm pre post) s) := by
  induction l with
  | nil => exact fun _ _ _ h => h
  | cons a l ih => exact fun s x hx hm => ih _ x hx (State.passAlarm_keeps pre post s a x hx hm)

/-- Each group has its timers in the span passed over. -/
theorem State.passTimers_group (s : State) (pre post : Instant) (g : Fin 64) :
    (s.passTimers pre post).group g = (s.group g).passedTo pre post s.tb.epoch := by
  unfold State.passTimers
  rw [foldPassAlarm_group, foldl_group (r := fun n _ x => x.passedTo pre post n)
    (State.passGroup_group pre post) (fun s _ _ h => State.passGroup_group_ne pre post s h)
    (fun s g => by simp) (fun s g => by simp) g allGroups s (List.nodup_finRange 64)]
  simp [allGroups]

/-- The record of each timer in the span waits, and so does every group record that waited. -/
theorem State.passTimers_records (s : State) (pre post : Instant) :
    let t := s.passTimers pre post
    s.keepsGroups t ∧ ∀ g : Fin 64,
      (passed pre post (s.group g).callOpen (s.group g).callTimer = true →
          t.steppedRecord g ((s.group g).callOpen.at s.tb.epoch) s.du.cls (.phase false))
      ∧ (passed pre post (s.group g).close (s.group g).windowTimer = true →
          t.steppedRecord g ((s.group g).close.at s.tb.epoch) s.du.cls (.window 0 0 none))
      ∧ ∀ d : Stamp, (s.group g).drawn = some d →
          passed pre post d.instant (s.group g).closeTimer = true →
          t.steppedRecord g d s.du.cls (.close d 0 0 0) := by
  intro t
  have move : ∀ {g : Fin 64} {a b : State} {st : Stamp} {cls : TraceClass} {bd : Body}, bd.isGroup = true →
      a.keepsGroups b → a.steppedRecord g st cls bd → b.steppedRecord g st cls bd := by
    rintro g a b st cls bd hb hk ⟨e, he, h1, h2, h3, h4, h5, h6⟩
    exact ⟨e, hk e (h6 ▸ hb) he, h1, h2, h3, h4, h5, h6⟩
  have h := foldl_records (f := State.passGroup pre post)
    (P := fun n cls g x t => (passed pre post x.callOpen x.callTimer = true →
          t.steppedRecord g (x.callOpen.at n) cls (.phase false))
      ∧ (passed pre post x.close x.windowTimer = true →
          t.steppedRecord g (x.close.at n) cls (.window 0 0 none))
      ∧ ∀ d : Stamp, x.drawn = some d → passed pre post d.instant x.closeTimer = true →
          t.steppedRecord g d cls (.close d 0 0 0))
    (fun s g => (State.passGroup_records pre post s g).2)
    (fun s g => (State.passGroup_records pre post s g).1)
    (fun _ _ _ _ _ _ hk hp => ⟨fun h => move rfl hk (hp.1 h), fun h => move rfl hk (hp.2.1 h),
      fun d hd h => move rfl hk (hp.2.2 d hd h)⟩)
    (fun s _ _ h => State.passGroup_group_ne pre post s h)
    (fun s g => by simp) (fun s g => by simp) allGroups s (List.nodup_finRange 64)
  have hk := foldPassAlarm_keeps pre post allAlarms (allGroups.foldl (State.passGroup pre post) s)
  have ht : t = allAlarms.foldl (State.passAlarm pre post) (allGroups.foldl (State.passGroup pre post) s) :=
    rfl
  rw [← ht] at hk
  clear_value t
  refine ⟨fun x hx hm => hk x hx (h.1 x hx hm), fun g => ?_⟩
  have hg : g ∈ allGroups := by simp [allGroups]
  have hp := h.2 g hg
  exact ⟨fun h => move rfl hk (hp.1 h), fun h => move rfl hk (hp.2.1 h),
    fun d hd h => move rfl hk (hp.2.2 d hd h)⟩

end Sys2Proof.Machine
end

