-- ==== Sys2Proof/Laws/Store.lean ====
section
/-!
SUPPORT. The pending store: consecutive numbers survive an append at the tail and a removal from the head.
The number and the phase tag that a release takes.
-/

namespace Sys2Proof.Machine

open Sys2Proof

/-- A record with the next number appended (R160). -/
theorem numbered_append {next : Nat} {rs : List Record} {r : Record} (h : numbered next rs)
    (hr : r.seq = next) : numbered (next + 1) (rs ++ [r]) := by
  induction rs with
  | nil => simp [numbered, hr]
  | cons x xs ih =>
    simp only [numbered, List.cons_append, List.length_append, List.length_cons, List.length_nil] at *
    exact ⟨by omega, ih h.2⟩

/-- Records removed from the head (R161). -/
theorem numbered_drop {next : Nat} {rs : List Record} (h : numbered next rs) (n : Nat) :
    numbered next (rs.drop n) := by
  induction rs generalizing n with
  | nil => simp [numbered]
  | cons x xs ih =>
    cases n with
    | zero => exact h
    | succ n => exact ih h.2 n

/-- The number after the last one given rises by one at a release, exhausted or not (R80). -/
theorem SQM.useNumber_numberEnd {q : SQM} (h : q.exhausted = false) :
    q.useNumber.numberEnd = q.next + 1 := by
  unfold SQM.useNumber SQM.numberEnd
  split <;> simp [h]

theorem SQM.useNumber_next {q : SQM} (h1 : 1 ≤ q.next) (h2 : q.next ≤ Config.seqMax) :
    1 ≤ q.useNumber.next ∧ q.useNumber.next ≤ Config.seqMax := by
  unfold SQM.useNumber
  split
  · exact ⟨h1, h2⟩
  · rename_i h
    exact ⟨by simp, by simp only at *; omega⟩

/-! ## What a release takes besides: its number and its tag -/

/-- The tag that SQM gets for a record of `n` is the phase of its group (R83). -/
theorem State.phaseTag_tag (s : State) (n : Nat) : (s.phaseTag n).2 = s.tagOf n := by
  unfold State.phaseTag groupOf State.tagOf
  by_cases h : n < 64
  · simp only [h, dif_pos]; cases (s.group ⟨n, h⟩).phase <;> rfl
  · simp only [h, dif_neg, not_false_eq_true]

/-- Of the auctions, the request of a tag changes the CALL count of its group alone (R94). -/
theorem State.phaseTag_callCounted (s : State) (n : Nat) : s.callCounted (s.phaseTag n).1 n := by
  unfold State.phaseTag groupOf
  by_cases h : n < 64
  · simp only [h, dif_pos]
    refine ⟨fun g => ?_, rfl, rfl⟩
    by_cases hg : g.val = n
    · subst hg
      rw [if_pos rfl]
      exact (State.setGroup_group _ _ _).trans (by simp [Group.counted, satAdd, Config.count32])
    · rw [if_neg hg]
      exact State.setGroup_group_ne _ _ fun e => hg (by rw [e])
  · simp only [h, dif_neg, not_false_eq_true]
    exact ⟨fun g => by rw [if_neg (by omega)], rfl, rfl⟩

/-- The number of a release is used, and its record sets the tie pointer (R79, R80). -/
theorem SQM.useNumber_tie (s : State) (tie : Nat) :
    { s.sqm.useNumber with tie := tie } = s.numberTaken tie := by
  unfold SQM.useNumber State.numberTaken
  simp only [Config.seqMax]
  by_cases h : s.sqm.next < 18446744073709551615
  · rw [if_neg (by omega), if_pos h]
  · rw [if_pos (by omega), if_neg h]

end Sys2Proof.Machine
end

