-- ==== Sys2Proof/Laws/Takes.lean ====
section
/-!
SUPPORT. The takes of request slots: what an owner's answer to a control slot, and the take of an event
slot, come to for a part that is ready to take them.
-/

namespace Sys2Proof.Machine

open Sys2Proof

/-! ## Outcomes with an access check -/

/-- A state whose endpoint carries accesses passes the check of its accesses unchanged. -/
theorem next_busCheck {s t : State} (hc : s.carries) (hl : t.ep.linkUp = s.ep.linkUp)
    (hb : t.ep.busMaster = s.ep.busMaster) :
    (.next (s.busCheck t) : Host.Outcome State Fault Refusal) = .next t := by
  rw [State.busCheck_of_carries s ⟨hl.trans hc.1, hb.trans hc.2⟩]

/-! ## Control slots -/

/-- The final header write of the control block, as the statements spell it. -/
theorem State.finishControl_eq {t : State} (hw : t.prt.chains ≠ .waitDone) (bad : Bool) (cause : CloseCause)
    (state : Nat) (leave : Bool) :
    t.finishControl bad cause state leave = { t with
      posted := t.posted ++ finalWrites .control t.ctl.ctx.current (if bad then 1#8 else 0#8)
        (BitVec.ofNat 8 cause.code) (BitVec.ofNat 8 state) t.ctl.block.count 0 0 t.ctl.block.notify leave } := by
  unfold State.finishControl
  rw [State.post_eq hw]
  cases bad <;> simp [finishWrites, finalWrites, blockWrite, plainWrite, countsBytes, u8]

/-- An answer written, counted and walked on from is `State.slotAnswered` (R139, R143, R148, R151). -/
theorem State.answer_eq {t : State} (hw : t.prt.chains ≠ .waitDone) (off : Nat) (h : SlotHead) (body : Nat)
    (r : List Byte) (st : SlotStatus) :
    State.answer t.ctl.ctx.current off h body ⟨t, st, r⟩ = t.slotAnswered off h body r st := by
  unfold State.answer State.slotAnswered State.afterSlot
  simp only [State.post_eq hw, State.countControl, answerWrites, blockWrite, statusWrite, plainWrite, bodyAddr]
  have hge : (t.ctl.block.used ≤ off + h.length.toNat) = ¬ (off + h.length.toNat < t.ctl.block.used) :=
    propext Nat.not_lt.symm
  cases hwk : t.ctl.ctx.walk <;> by_cases hl : off + h.length.toNat < t.ctl.block.used <;>
    simp only [State.advanceControl, State.stopAtSlot, ge_iff_le, hge, hl, if_true, if_false,
      not_true_eq_false, not_false_eq_true] <;>
    (try rw [State.finishControl_eq (by simpa using hw)]) <;>
    simp [State.setCtx, Nat.add_assoc, u8, CloseCause.code, blockDone, blockPartial]

@[simp] theorem State.slotAnswered_ep (t : State) (off : Nat) (h : SlotHead) (body : Nat) (r : List Byte)
    (st : SlotStatus) : (t.slotAnswered off h body r st).ep = t.ep := by
  unfold State.slotAnswered; dsimp only; (repeat' split) <;> rfl

/-- What the take of a control slot does, for an owner that keeps to its own block. -/
theorem takeControl_of_requestAt {s : State} {code off : Nat} {h : SlotHead} (hs : s.requestAt code off h)
    (body : Nat) (owner : State → Answer) (hctl : (owner s).state.ctl = s.ctl)
    (hprt : (owner s).state.prt.chains = s.prt.chains)
    (hl : (owner s).state.ep.linkUp = s.ep.linkUp)
    (hb : (owner s).state.ep.busMaster = s.ep.busMaster) :
    takeControl s code body owner
      = .next ((owner s).state.slotAnswered off h body (owner s).result (owner s).status) := by
  obtain ⟨hr, hc, hw, ha, hwk, hk⟩ := hs
  have hslot : s.controlSlot code = some (off, h) := by
    rcases hwk with hwk | hwk <;>
      simp [State.controlSlot, State.atSlot, hwk, State.walking, State.ctx, ha, State.halted_eq_false hw, hk]
  unfold takeControl
  rw [tickedIO_of_ready hr]
  simp only [hslot]
  rw [← hctl, State.answer_eq (t := (owner s).state) (by rw [hprt]; exact hw) off h body
    (owner s).result (owner s).status]
  exact next_busCheck hc (by rw [State.slotAnswered_ep, hl]) (by rw [State.slotAnswered_ep, hb])

/-- A request that is refused changes nothing but its slot. -/
theorem takeControl_refused {s : State} {code off : Nat} {h : SlotHead} (hs : s.requestAt code off h)
    (body : Nat) (owner : State → Answer) (st : SlotStatus) (ho : owner s = refused s st) :
    takeControl s code body owner = .next (s.slotAnswered off h body [] st) := by
  have := takeControl_of_requestAt hs body owner (by rw [ho]; rfl) (by rw [ho]; rfl) (by rw [ho]; rfl)
    (by rw [ho]; rfl)
  rw [this, ho]; rfl

/-! ## Event slots -/

/-- The walk goes from a slot that is not the block's last to the next one (R148). -/
theorem State.advanceEvent_within {s : State} {off len : Nat} (h : off + len < s.eventUsed) :
    s.advanceEvent off len = s.setCtx .event { s.evt.ctx with walk := .slotHead (off + len) } := by
  unfold State.advanceEvent
  rw [if_neg (by omega)]

/-- The last block of the list changes. -/
@[simp] theorem mapLast_append (f : EvtBlock → EvtBlock) (bs : List EvtBlock) (b : EvtBlock) :
    mapLast f (bs ++ [b]) = bs ++ [f b] := by
  induction bs with
  | nil => rfl
  | cons x xs ih => cases xs with
    | nil => rfl
    | cons y ys => simpa [mapLast] using ih

theorem State.eventUsed_eq {s : State} {bs : List EvtBlock} {b : EvtBlock} (h : s.evt.blocks = bs ++ [b]) :
    s.eventUsed = b.used := by
  simp [State.eventUsed, h]

/-- A slot of the current block is answered or taken with `ws`, and the walk goes on (R145, R148, R157). -/
theorem State.advanceEvent_eq {s : State} {bs : List EvtBlock} {b : EvtBlock} {off len : Nat}
    {f : EvtBlock → EvtBlock} {ws : List HostWrite} (hw : s.prt.chains ≠ .waitDone)
    (hb : s.evt.blocks = bs ++ [b]) (hu : (f b).used = b.used)
    (hl : b.used ≤ off + len → (f b).unfinished = false ∧ ∀ x ∈ bs, 0 < x.outstanding) :
    ((s.post ws).mapCurrent f).advanceEvent off len = s.eventWalked off len (f b) ws := by
  have hm : ((s.post ws).mapCurrent f).evt.blocks = bs ++ [f b] := by
    rw [State.post_eq hw]; simp [State.mapCurrent, hb]
  unfold State.advanceEvent State.eventWalked
  rw [State.eventUsed_eq hm, hu]
  by_cases h : off + len < b.used
  · rw [if_neg (by omega), if_pos h, State.post_eq hw]
    simp [State.mapCurrent, State.setCtx, hb]
  · obtain ⟨h1, h2⟩ := hl (by omega)
    rw [if_pos (by omega), if_neg h, State.post_eq hw]
    have hk : bs.filter EvtBlock.finished = [] :=
      List.filter_eq_nil_iff.2 fun x hx => by have := h2 x hx; simp [EvtBlock.finished]; omega
    have hk' : bs.filter (fun x => !x.finished) = bs :=
      List.filter_eq_self.2 fun x hx => by have := h2 x hx; simp [EvtBlock.finished]; omega
    simp only [State.leaveEvent, State.mapCurrent, hb, mapLast_append, State.finishEvent, List.filter_append,
      hk, hk', State.eventLeft, List.dropLast_concat, State.readNext]
    rw [State.post_eq (by exact hw)]
    by_cases ho : (f b).outstanding = 0 <;>
      simp [EvtBlock.finished, ho, h1, State.setCtx, State.ctx, EvtBlock.writes, finishWrites, finalWrites,
        blockWrite, plainWrite, countsBytes, u8, CloseCause.code, blockDone]
    cases (f b).bad <;> simp

/-- What the take of an event slot does: the slot is refused with RANGE, or stamped and taken (R154). -/
theorem takeEngine_of_eventAt {s : State} {code off : Nat} {h : SlotHead} (hs : s.eventAt code off h)
    (kind : EngineKind) (group : Byte) (payload : List Byte) (ok : SlotHead → Bool) :
    takeEngine s code kind group payload ok = .next (s.busCheck
      (if ok h then s.left.takeEvent off h (s.left.engineEntry off h kind group payload)
       else s.refuseEvent off h .range)) := by
  obtain ⟨hr, -, hw, ha, h1, h2, h3, hk, hcode⟩ := hs
  have hslot : s.eventSlot code = some (off, h) := by
    simp [State.eventSlot, hk, State.mayTakeEvent, ha, h1, h2, h3, State.halted_eq_false hw, hcode]
  unfold takeEngine
  rw [tickedIO_of_ready hr]
  simp only [hslot]

end Sys2Proof.Machine
end

