-- ==== Sys2Proof/Tests/Slice0.lean ====
section
/-!
SUPPORT. The model's own tests. The first part holds the checks of well-formedness and the spec's worked
cases and tables, each test about one step; the second part shows for each statement of the certificates a
state and operands that meet its hypotheses, at the boundaries of its clauses. Expected values come from the
spec's chapter named at the test.
-/

namespace Sys2Proof.Tests

set_option Elab.async false

open Sys2Proof Sys2Proof.Machine

/-! ## Small states -/

/-- The state a command leaves. -/
def after (c : Instr) (s : State) : State :=
  match exec c s with
  | .next t => t
  | _ => s

/-- After power-on, with an endpoint that carries accesses and sends messages. -/
def atWork : State :=
  { State.reset with
    ep := { linkUp := true, configured := true, busMaster := true, msi := true, masked := false,
            vectorPending := false } }

/-- DU in a state with an integrator, and one judged second that waits for its action instant. -/
def disciplined (st : DState) (i c : Int) (sec : Second) : State :=
  { atWork with
    clock := { atWork.clock with period := 1 }
    tb := { atWork.tb with inc := incOf c }
    du := { atWork.du with state := st, i := i, c := c, e := 180, cls := .traceable, judged := [sec] } }

/-- A good consistent second with an offset, with a declared accuracy of 100 ns. -/
def goodSecond (d : Int) : Second :=
  { cause := .goodConsistent, latch := some ⟨3, 41000, 116⟩, d := d, theta := saturate d, accuracy := 100,
    utcOffset := 0, expected := some 41002, goodRun := 5, badRun := 0,
    seen := { quality := .primary, accuracy := 100, leap := .none, source := 1 }, correct := true,
    period := 0 }

/-- The control chain at a NEW slot of a kind, the first of its block. -/
def ctlSlot (kind : Nat) : State :=
  { atWork with
    ctl := { ctx := { ChainCtx.powerOn with
               state := .active, start := 4096#64, current := 4096#64
               walk := .slot 0 { kind := BitVec.ofNat 16 kind, length := 432#16, status := 0#8, tag := 7#32 } }
             block := { used := 864, notify := true, count := 0 } } }

def ctlHead (kind : Nat) : SlotHead :=
  { kind := BitVec.ofNat 16 kind, length := 432#16, status := 0#8, tag := 7#32 }

/-- The event chain at a NEW slot of a kind, the first of its block. -/
def evtSlot (kind : Nat) : State :=
  { atWork with
    evt := { ctx := { ChainCtx.powerOn with
               state := .active, start := 8192#64, current := 8192#64
               walk := .slot 0 { kind := BitVec.ofNat 16 kind, length := 64#16, status := 0#8, tag := 9#32 } }
             fifo := []
             blocks := [{ addr := 8192#64, notify := true, used := 128, outstanding := 0, left := false,
                          count := 0, low := none, high := none, bad := false, unfinished := false }]
             writeBacks := [] } }

def evtHead (kind : Nat) : SlotHead :=
  { kind := BitVec.ofNat 16 kind, length := 64#16, status := 0#8, tag := 9#32 }

/-- A chain that waits for a host read. -/
def waiting (c : Chain) (w : Walk) (remembered : Bool) : State :=
  atWork.setCtx c { ChainCtx.powerOn with
    state := .active, start := 4096#64, current := 4096#64, remembered := remembered, walk := w }

/-- Line 0 with its fields. -/
def withLine (l : Line) : State := atWork.setLine 0 l

/-- A record of PST. -/
def aRecord (seq : Nat) : Record :=
  { body := .run 0 1, source := 5, cls := .traceable, tag := .none, group := 255, urgent := false,
    late := false, steppedOver := false, coalesced := false, count := 1, seq := seq, stamp := ⟨0, 0, 0⟩,
    hostTag := 0 }

/-- An entry of the agenda. -/
def waitingRecord (group : Nat) (body : Body) : Internal :=
  { stamp := ⟨0, 0, 0⟩, cls := .unsynchronized, group := group, late := false, steppedOver := false,
    coalesced := false, count := 1, order := 0, body := body }

/-! ## Well-formedness: each check refuses an ill-formed command -/

theorem test_wf_ref_frame_too_long : (Instr.refFrameEnd (pad 25) .frameEnd).wellFormed = false := by
  decide +kernel
theorem test_wf_ref_frame_symbol25 : (Instr.refFrameEnd (pad 24) .symbol25).wellFormed = false := by
  decide +kernel
theorem test_wf_ref_frame_ok : (Instr.refFrameEnd (pad 24) .frameEnd).wellFormed = true := by
  decide +kernel
theorem test_wf_frame_too_long : (Instr.frameEnd 0 (pad 253) false .eof).wellFormed = false := by
  decide +kernel
theorem test_wf_frame_runaway : (Instr.frameEnd 0 (pad 252) false .runaway).wellFormed = false := by
  decide +kernel
theorem test_wf_slot_of_capture : (Instr.slotHeadRead .capture (ctlHead 1)).wellFormed = false := by
  decide +kernel
theorem test_wf_state_write_of_capture : (Instr.blockStateWriteComplete .capture).wellFormed = false := by
  decide +kernel
theorem test_wf_payload_short : (Instr.stamp 0 8 (pad 7)).wellFormed = false := by
  decide +kernel
theorem test_wf_payload_not_read : (Instr.stamp 0 241 [0]).wellFormed = false := by
  decide +kernel
theorem test_wf_write_reaches :
    (Instr.registerWriteIgnored { offset := 0x08, width := 4, value := 0 }).wellFormed = false := by
  decide +kernel
theorem test_wf_write_ignored :
    (Instr.registerWriteIgnored { offset := 0x08, width := 2, value := 0 }).wellFormed = true := by
  decide +kernel

/-! ## The table gives no row any bits -/

theorem test_no_word_spells_a_command (n w : Nat) : decodeTableWord n w = none := rfl
theorem test_withFetchWord_unchanged (s : State) (n w : Nat) : s.withFetchWord n w = s := rfl

/-! ## Arithmetic (chapter 1, the tables of R4 and R6) -/

/-- 1.3, rounding: −1.5 gives −2, 1.5 gives 2, ±0.1875 gives 0, ±0.5 gives ±1. -/
theorem test_round_half_away :
    roundDiv (-3) 2 = -2 ∧ roundDiv 3 2 = 2 ∧ roundDiv 3 16 = 0 ∧ roundDiv (-3) 16 = 0
      ∧ roundDiv 8 16 = 1 ∧ roundDiv (-8) 16 = -1 := by decide

/-- 1.3: the INC values of the worked cases. -/
theorem test_inc_of_worked_cases :
    incOf (-570) = 17179859391 ∧ incOf (-100000) = 17178151197 ∧ incOf (-4888) = 17179785209
      ∧ incOf (-56420) = 17178899896 ∧ incOf (-5000) = 17179783285 := by decide

/-- 1.3, one ordinary servo second: I 120 and θ 800 give I 170 and C −570. -/
theorem test_servo_ordinary :
    servo { p := 1, k := 4, limit := 100000, threshold := 50000, never := false } 120 800
      = (170, -570) := by decide

/-- 1.3, a clamped second with a held step, its four seconds. -/
theorem test_servo_clamped :
    servo { p := 1, k := 4, limit := 100000, threshold := 50000, never := false } 170 300000
        = (170, -100000)
      ∧ servo { p := 1, k := 4, limit := 100000, threshold := 50000, never := false } 170 100000
        = (6420, -56420)
      ∧ servo { p := 1, k := 4, limit := 100000, threshold := 50000, never := false } 6420 43580
        = (9144, -30934) := by decide

/-- R1: the counter after a period that carries into a second, and at the wrap of the seconds. -/
theorem test_period_carries :
    (after .oscillatorPeriod { atWork with tb := { atWork.tb with sec := 7, ns := 999999996 } }).tb.sec = 8
      ∧ (after .oscillatorPeriod { atWork with tb := { atWork.tb with
          sec := 281474976710655, ns := 999999999 } }).now = ⟨0, 0, 3⟩ := by decide +kernel

/-- 1.3: the ordinary servo second at its action instant. -/
theorem test_action_servo :
    (after .actionInstant (disciplined .locked 120 0 (goodSecond 800))).tb.inc = 17179859391 := by
  decide +kernel

/-- 1.4: the backward step: epoch 4, 40,999 s 999,925,120 ns, C −4,888, E 100. -/
theorem test_action_steps_back :
    let s := { disciplined .locked 200 0 (goodSecond 75000) with
      tb := { atWork.tb with sec := 41000, ns := 120, epoch := 3 } }
    (after .actionInstant s).now = ⟨4, 40999, 999925120⟩ ∧ (after .actionInstant s).du.c = -4888
      ∧ (after .actionInstant s).du.e = 100 := by decide +kernel

/-- 1.8: SET_STEERING with L lowered to 5,000: I 5,000, C −5,000. -/
theorem test_set_steering_lowers :
    let s := { ctlSlot 0x02 with du := { atWork.du with state := .locked, i := 6420, c := -56420 } }
    (after (.setSteering 1 4 0 5000 50000) s).du.c = -5000
      ∧ (after (.setSteering 1 4 0 5000 50000) s).tb.inc = 17179783285 := by decide +kernel

/-- R18: SET_TIME at a target equal to now counts as forward. -/
theorem test_set_time_equal_is_forward :
    (after (.setTime ⟨0, 0⟩) (ctlSlot 0x01)).tb.epoch = 0
      ∧ (after (.setTime ⟨5, 1000000000⟩) (ctlSlot 0x01)).tb.sec = 0 := by decide +kernel

/-! ## Reference line and discipline (chapter 2) -/

/-- R27: the CRC-16 with polynomial 0x1021 and initial value 0xFFFF of "123456789" is 0x29B1. -/
theorem test_crc16 : crc16 [0x31, 0x32, 0x33, 0x34, 0x35, 0x36, 0x37, 0x38, 0x39] = 0x29B1#16 := by
  decide +kernel

/-- R25. -/
theorem test_sync :
    (after .refSyncGained atWork).du.inSync = true
      ∧ (after (.refSyncLost .signalLost) (after .refSyncGained atWork)).du.inSync = false := by
  decide +kernel

/-- R27: 23 data symbols are a LENGTH fault, wherever the CRC stands. -/
theorem test_ref_frame_short :
    ((after (.refFrameEnd (pad 23) .frameEnd) (after .refSyncGained atWork)).du.latch.map (·.verdict))
      = some .length := by decide +kernel

/-- 2.3, first acquisition: the first marker after ABSENT is good and inconsistent; DU then waits. -/
theorem test_marker_first :
    let fields : RefFields := { seconds := 502, utcOffset := 37, leap := .none, quality := .primary,
                                accuracy := 100, source := 1 }
    let s := { atWork with
      clock := { atWork.clock with own := 35200000000 * 4294967296 }
      tb := { atWork.tb with sec := 35, ns := 200000000 }
      du := { atWork.du with
        inSync := true
        latch := some { fields := fields, verdict := .correct, endOwn := 0 } } }
    (after .marker s).du.expected = some 503 ∧ (after .marker s).du.goodRun = 1 := by decide +kernel

/-- 2.3: the initial set: 36 s 200,000,004 ns less D gives 503 s 4 ns; E is 100, the class TRACEABLE. -/
theorem test_initial_set :
    let s := { disciplined .acquiring 0 0 (goodSecond (-466800000000)) with
      tb := { atWork.tb with sec := 36, ns := 200000004 } }
    (after .actionInstant s).now = ⟨0, 503, 4⟩ ∧ (after .actionInstant s).du.e = 100
      ∧ (after .actionInstant s).du.cls = .traceable := by decide +kernel

/-- 1.6, a forward step over two timers: STEP, then PHASE, then ALARM, each at its instant. -/
theorem test_step_over_timers :
    let g : Group := { Group.powerOn with
      phase := .armed, callOpen := ⟨50000, 40000⟩, close := ⟨50900, 0⟩, x := 1, callTimer := true
      windowTimer := true }
    let s := ((disciplined .locked 0 0 (goodSecond (-60000))).setGroup 12 g).setAlarm 2
      (some { period := 0, next := ⟨50000, 55000⟩, late := false })
    let t := { s with tb := { s.tb with sec := 50000, ns := 30000, epoch := 7 }
                      clock := { s.clock with prev := ⟨50000, 29996⟩ }
                      att := { s.att with nextBoundary := 50001 } }
    (after .actionInstant t).sqm.agenda.map (fun e => (e.stamp, e.body.code, e.steppedOver))
        = [(⟨7, 50000, 30000⟩, 11, false), (⟨7, 50000, 40000⟩, 6, true), (⟨7, 50000, 55000⟩, 9, true)]
      ∧ (after .actionInstant t).now = ⟨7, 50000, 90000⟩ := by decide +kernel

/-- 5.9 and R131: the step by 2.5 s passes two instants of alarm 3 and two boundaries over. -/
theorem test_step_over_alarm_and_boundaries :
    let s := (disciplined .locked 0 0 (goodSecond (-2500000000))).setAlarm 3
      (some { period := 1000, next := ⟨40101, 0⟩, late := false })
    let t := { s with tb := { s.tb with sec := 40100, ns := 200000000, epoch := 1 }
                      clock := { s.clock with prev := ⟨40100, 199999996⟩ }
                      att := { s.att with nextBoundary := 40101 } }
    (after .actionInstant t).alarm 3 = some { period := 1000, next := ⟨40103, 0⟩, late := false }
      ∧ (after .actionInstant t).att.nextBoundary = 40103
      ∧ ((after .actionInstant t).sqm.agenda.map (·.body)).getLast? = some (.alarm 3 1) := by decide +kernel

/-- 2.3, a lost marker: LOCKED with E 180 becomes SUSPECT with 280. -/
theorem test_missing_marker :
    let s := { disciplined .locked 0 0 (goodSecond 0) with
      du := { (disciplined .locked 0 0 (goodSecond 0)).du with judged := [], missingAt := some 0 } }
    (after .missingMarkerExpiry s).du.state = .suspect ∧ (after .missingMarkerExpiry s).du.e = 280 := by
  decide +kernel

/-- 2.5, a holdover crossing the divergence limit: at s = 997 E is 100,050 and the class DEGRADED. -/
theorem test_holdover_crosses :
    let s := { atWork with du := { atWork.du with
      state := .holdover, e := 99950, eBase := 350, holdCount := 996, cls := .traceable } }
    (after .holdoverSecond s).du.e = 100050 ∧ (after .holdoverSecond s).du.cls = .degraded := by
  decide +kernel

/-- 2.6: E at s = 600 stays 60,350 under a lowered limit, and the class becomes DEGRADED. -/
theorem test_set_trace_limits :
    let s := { ctlSlot 0x03 with du := { atWork.du with
      state := .holdover, e := 60350, eBase := 350, holdCount := 600, cls := .traceable, holdNext := 1 } }
    (after (.setTraceLimits 50000 50 200) s).du.cls = .degraded
      ∧ (after (.setTraceLimits 50000 50 200) s).du.eBase = 60350 := by decide +kernel

/-! ## Order lines (chapter 3) -/

/-- R57: the CRC-32 of "123456789" is 0xCBF43926. -/
theorem test_crc32 : crc32 [0x31, 0x32, 0x33, 0x34, 0x35, 0x36, 0x37, 0x38, 0x39] = 0xCBF43926#32 := by
  decide +kernel

/-- A frame of kind 17, group 5 and tag 0x0A11 with 8 payload bytes of 0, its CRC computed. -/
def frameHead : List Byte := [17, 5, 0x0A, 0x11, 0, 8, 0, 0]
def aFrame : List Byte := frameHead ++ pad 8 ++ beBytes 4 (crc32 (frameHead ++ pad 8)).toNat

def openLine : Line := { Line.powerOn with up := true, opened := true }
def inFrame : Line := { openLine with frame := some (.stamped ⟨2, 41200, 512004⟩ .traceable) }

/-- R2: a frame that starts in the period of the initial set, before its work is taken, reads the time the set
gives. -/
theorem test_frame_start_in_a_set :
    let s := { disciplined .acquiring 0 0 (goodSecond (-466800000000)) with
      tb := { atWork.tb with sec := 36, ns := 200000004 }, lines := (withLine openLine).lines }
    ((after (.frameStart 0) s).line 0).frame = some (.stamped ⟨0, 503, 4⟩ .traceable) := by decide +kernel

/-- 3.5: the stamp of the entry is the one taken at the SOF. -/
theorem test_frame_accepted :
    ((after (.frameEnd 0 aFrame false .eof) (withLine inFrame)).line 0).fifo.map
        (fun e => (e.stamp, e.kind, e.group, e.tag)) = [(⟨2, 41200, 512004⟩, 17, 5, 0x0A11)] := by
  decide +kernel

/-- R52: a frame that ends at an idle fails the length check. -/
theorem test_frame_refused :
    ((after (.frameEnd 0 aFrame false .idle) (withLine inFrame)).line 0).acks
      = [.refuse 0x0A11 .length] := by decide +kernel

/-- R53: under CLOSED the frame is marked, and gets no stamp. -/
theorem test_frame_start_closed :
    ((after (.frameStart 0) (withLine { Line.powerOn with up := true })).line 0).frame = some .closed := by
  decide +kernel

/-- R50, R69: a link that goes DOWN aborts the frame in progress, and keeps the admission. -/
theorem test_link_down :
    ((after (.linkDown 0 .lockLost) (withLine inFrame)).line 0).counters.aborted = 1
      ∧ ((after (.linkDown 0 .lockLost) (withLine inFrame)).line 0).opened = true := by decide +kernel

/-- R49, R64: at entry to UP a flow symbol is due, and LINE_CHANGE (bit 13) is set. -/
theorem test_link_up :
    ((after (.linkUp 2) atWork).line 2).flowDue = true
      ∧ (after (.linkUp 2) atWork).prt.notice = 0x2000#15 := by decide +kernel

/-- 10.7: an ACK is 23 bytes long and goes out whole. -/
theorem test_response_sent :
    let s := withLine { openLine with acks := [.ack 0x0A11 90117 ⟨2, 41200, 512004⟩], tx := .response }
    (after (.responseSent 0) s).wire =
      [.response 0 [1, 0x0A, 0x11, 0, 0, 0, 0, 0, 1, 0x60, 0x05, 0, 2, 0, 0, 0, 0, 0xA0, 0xF0, 0, 0x07,
        0xD0, 0x04]] := by decide +kernel

/-- R64: two changes before the symbol is sent yield one symbol, with the state in force. -/
theorem test_flow_symbol_sent :
    let s := withLine { openLine with flowDue := true, hold := true }
    (after (.flowSymbolSent 0) s).wire = [.flow 0 true] := by decide +kernel

/-- R62: a response joins an idle; a flow symbol that becomes due within that idle goes out first. -/
theorem test_flow_symbol_before_response :
    let s := (withLine { openLine with flowDue := false }).setLine 0 (openLine.respond (.refuse 1 .crc))
    let due := s.setLine 0 { s.line 0 with flowDue := true, hold := true }
    (after (.responseSent 0) (after (.flowSymbolSent 0) due)).wire.length = 2
      ∧ (after (.flowSymbolSent 0) due).wire = [.flow 0 true] := by decide +kernel

/-- R49: the 64th idle in a row brings the link UP, through LINK_UP. -/
theorem test_training :
    ((withLine { Line.powerOn with training := 63 }).lineHears 0 .idle).pending = [.linkUp 0]
      ∧ ((withLine { Line.powerOn with training := 63 }).lineHears 0 .wellFormed).pending = [] := by
  decide +kernel

/-- R66 to R68. -/
theorem test_line_requests :
    ((after (.openLine 3) (ctlSlot 0x04)).line 3).opened = true
      ∧ ((after (.closeLine 0) { ctlSlot 0x05 with lines := (withLine openLine).lines }).line 0).opened = false
      ∧ ((after (.setLineParams 1 17 0) (ctlSlot 0x06)).line 1).urgentA = 17 := by decide +kernel

/-! ## The merge (chapter 4) -/

/-- A head stamped 1 / 70,000 s / 500,100 ns plus `d`. -/
def headAt (d : Nat) : FifoEntry :=
  { stamp := ⟨1, 70000, 500100 + d⟩, cls := .traceable, kind := 1, group := 255, tag := 1,
    payload := pad 8, urgent := false }

/-- 4.6, a tie between three lines, at its start. -/
def tie3 : State :=
  { atWork with
    tb := { atWork.tb with sec := 70001, epoch := 1 }
    clock := { atWork.clock with prev := ⟨70001, 0⟩ }
    att := { atWork.att with nextBoundary := 70002 }
    sqm := { atWork.sqm with tie := 2, next := 4000 }
    lines := { l0 := { openLine with fifo := [headAt 0] }, l1 := Line.powerOn,
               l2 := { openLine with fifo := [headAt 0] },
               l3 := { openLine with fifo := [headAt 0, headAt 8] } } }

/-- Release 1 takes line 2 and moves the pointer to 3; release 3 is uncontested and keeps it at 4. -/
theorem test_release_tie :
    (after .release tie3).pst.records.map (fun r => (r.source, r.seq)) = [(2, 4000)]
      ∧ (after .release tie3).sqm.tie = 3
      ∧ (after .release (after .release (after .release tie3))).pst.records.map (fun r => (r.source, r.seq))
        = [(2, 4000), (3, 4001), (0, 4002)]
      ∧ (after .release (after .release (after .release tie3))).sqm.tie = 4 := by decide +kernel

/-- R84, R85: a new run gives its RUN record the first number. -/
theorem test_set_sequence :
    (after (.setSequence 500 9) (ctlSlot 0x07)).pst.records.map (fun r => (r.seq, r.body.code)) = [(500, 13)]
      ∧ (after (.setSequence 0 9) (ctlSlot 0x07)).sqm.next = 1 := by decide +kernel

/-! ## Auctions and alarms (chapter 5) -/

/-- 5.4: the first steps of the generator from 1. -/
theorem test_generator_steps :
    genStep 0x00000001#32 = 0x80200003#32 ∧ genStep 0x80200003#32 = 0xC0300002#32 := by decide

/-- 5.4, one draw: G = 0x9E3779B9 and W = 120,000 give 74,164 ms. -/
theorem test_draw : drawOffset 0x9E3779B9#32 120000 = 74164 := by decide

/-- The largest draw of the largest window is the window itself. -/
theorem test_draw_largest : drawOffset 0xFFFFFFFF#32 300000 = 300000 := by decide

/-- Group 9 of the worked sequence (5.6), armed. -/
def group9 : Group :=
  { Group.powerOn with
    phase := .armed, callOpen := ⟨55800, 0⟩, close := ⟨56100, 0⟩, w := 120000, x := 30000, m := 2,
    callTimer := true, windowTimer := true }

/-- The state with that group, at an instant of epoch 1 one period after `prev`. -/
def auction (g : Group) (prev now : Instant) : State :=
  let s := atWork.setGroup 9 g
  { s with
    tb := { s.tb with sec := now.sec, ns := now.ns, epoch := 1 }
    clock := { s.clock with prev := prev }
    att := { s.att with nextBoundary := 70000 } }

theorem test_call_open_timer :
    (after (.callOpenTimer 9) (auction group9 ⟨55799, 999999998⟩ ⟨55800, 2⟩)).sqm.agenda.map
      (fun e => (e.stamp, e.body.code)) = [(⟨1, 55800, 0⟩, 6)] := by decide +kernel

theorem test_close_window_timer :
    (after (.closeWindowTimer 9) (auction { group9 with phase := .call, callTimer := false }
      ⟨56099, 999999998⟩ ⟨56100, 2⟩)).sqm.agenda.map (fun e => (e.stamp, e.body.code))
      = [(⟨1, 56100, 0⟩, 7)] := by decide +kernel

theorem test_close_timer :
    (after (.closeTimer 9) (auction { group9 with
        phase := .closing, callTimer := false, windowTimer := false, closeTimer := true
        drawn := some ⟨1, 56174, 164000000⟩ } ⟨56174, 163999999⟩ ⟨56174, 164000003⟩)).sqm.agenda.map
      (fun e => (e.stamp, e.body.code)) = [(⟨1, 56174, 164000000⟩, 8)] := by decide +kernel

/-- An EXTEND at 56,150.25 s in CLOSING moves the scheduled close to 56,180.25 s and the group to CALL. -/
theorem test_extend_in_closing :
    let s := auction { group9 with
      phase := .closing, callTimer := false, windowTimer := false, closeTimer := true
      drawn := some ⟨1, 56174, 164000000⟩, callCount := 4212 } ⟨56150, 250000000⟩ ⟨56150, 250000004⟩
    ((s.extendGroup 9 ⟨1, 56150, 250000000⟩).group 9).close = ⟨56180, 250000000⟩
      ∧ ((s.extendGroup 9 ⟨1, 56150, 250000000⟩).group 9).phase = .call := by decide +kernel

/-- R97: a close that is past is refused with LATE; a legal ARM_GROUP leaves the phase (R99). -/
theorem test_arm_group :
    let s := { ctlSlot 0x08 with tb := { atWork.tb with sec := 56200 }
                                 clock := { atWork.clock with prev := ⟨56200, 0⟩ } }
    (after (.armGroup 4 2 120000 30000 ⟨55800, 0⟩ ⟨56100, 0⟩) s).sqm.agenda = []
      ∧ ((after (.armGroup 4 2 120000 30000 ⟨56800, 0⟩ ⟨57100, 0⟩) s).group 4).phase = .idle := by
  decide +kernel

theorem test_disarm_group :
    (after (.disarmGroup 9) { ctlSlot 0x09 with
      atu := (atWork.setGroup 9 { group9 with callOpen := ⟨60000, 0⟩ }).atu }).sqm.agenda.map
      (fun e => (e.group, e.body.code)) = [(9, 5)] := by decide +kernel

/-- R105: a seed of 0 is used as 1. -/
theorem test_set_seed :
    (after (.setSeed 0) (ctlSlot 0x0A)).atu.generator = 1#32
      ∧ (after (.setSeed 5) (ctlSlot 0x0A)).atu.generator = 5#32 := by decide +kernel

/-- 5.9: a periodic alarm under a stall: the third instant makes missed 2, count 3. -/
theorem test_alarm_timer :
    let s := { atWork.setAlarm 3 (some { period := 60000, next := ⟨36180, 0⟩, late := false }) with
      tb := { atWork.tb with sec := 36180, ns := 1, epoch := 1 }
      clock := { atWork.clock with prev := ⟨36179, 999999997⟩ }
      sqm := { atWork.sqm with created := 2, agenda :=
        [{ waitingRecord 255 (.alarm 3 1) with stamp := ⟨1, 36060, 0⟩, count := 2, coalesced := true }] } }
    (after (.alarmTimer 3) s).alarm 3 = some { period := 60000, next := ⟨36240, 0⟩, late := false }
      ∧ (after (.alarmTimer 3) s).sqm.agenda.map (fun e => (e.stamp, e.count, e.body))
        = [(⟨1, 36060, 0⟩, 3, .alarm 3 2)] := by decide +kernel

theorem test_set_and_cancel_alarm :
    (after (.setAlarm 2 1000 ⟨9, 0⟩) (ctlSlot 0x0B)).alarm 2
        = some { period := 1000, next := ⟨9, 0⟩, late := false }
      ∧ (after (.cancelAlarm 8) (ctlSlot 0x0C)).posted.map (·.bytes) = [[4]] := by decide +kernel

/-- R118, R120: an alarm that the forward step of the period passes over leaves its record, though it is
cancelled before ACTION_INSTANT. -/
theorem test_cancel_alarm_before_a_step :
    let d := disciplined .acquiring 0 0 (goodSecond (-1000))
    let s : State := { d.setAlarm 2 (some { period := 0, next := ⟨0, 500⟩, late := false }) with
      ctl := (ctlSlot 0x0C).ctl }
    let t := after (.cancelAlarm 2) s
    t.alarm 2 = none ∧ t.sqm.agenda.any (fun e => e.body == .alarm 2 0) = true
      ∧ (t.posted.map (·.bytes))[0]? = some (pad 8) := by decide +kernel

/-! ## Evidence (chapter 6) -/

/-- R123: the boundary at 1 s closes the first period, which began at 0. -/
theorem test_attest_boundary :
    let s := { atWork with tb := { atWork.tb with sec := 1, ns := 3 }
                           clock := { atWork.clock with prev := ⟨0, 999999999⟩ } }
    (after .attestBoundary s).sqm.agenda.map (·.stamp) = [⟨0, 1, 0⟩]
      ∧ (after .attestBoundary s).att.nextBoundary = 2 := by decide +kernel

/-- A check input that is enabled, with a limit of 1,000 ns. -/
def enabledCheck : Check := { Check.powerOn with enabled := true, filter := .ns100, watched := true }

theorem test_check_rises :
    ((after (.checkRisingTransition .chk1) (atWork.setCheck .chk1 enabledCheck)).check .chk1).pulse.isSome
      = true := by decide +kernel

theorem test_check_dropped :
    ((after (.checkPulseDropped .chk0) (atWork.setCheck .chk0 { enabledCheck with
      pulse := some { stamp := ⟨0, 0, 0⟩, riseOwn := 0, filter := .ns100 } })).check .chk0).pulse = none := by
  decide +kernel

/-- R133: a latch at 999,998,000 ns is 2,000 ns early, beyond the limit. -/
theorem test_check_edge :
    let s := { atWork.setCheck .chk0 { enabledCheck with
        pulse := some { stamp := ⟨0, 5, 999998000⟩, riseOwn := 0, filter := .ns100 } } with
      clock := { atWork.clock with own := 100 * 4294967296 } }
    ((after (.checkEdgeRecognized .chk0) s).check .chk0).offset = some (-2000)
      ∧ (after (.checkEdgeRecognized .chk0) s).prt.notice = 0x0200#15 := by decide +kernel

/-- R134: a watched input without an edge in the second that ended counts it. -/
theorem test_check_second :
    ((after .checkSecondJudged { atWork.setCheck .chk0 enabledCheck with
      clock := { atWork.clock with carried := true } }).check .chk0).missing = 1 := by decide +kernel

/-- R134: the second during which an input is enabled is not judged, in the carry's own period either: neither
the carry that began it nor, once it has ended without an edge, the next one counts it. -/
theorem test_enabled_second_not_judged :
    let s := { ctlSlot 0x0D with clock := { atWork.clock with carried := true } }
    let t := after .checkSecondJudged (after (.setEvidenceParams 1 ⟨1, 0, 500⟩ ⟨0, 0, 1⟩) s)
    let u := after .checkSecondJudged { t with clock := { t.clock with carried := true } }
    (t.check .chk0).watched = false ∧ (u.check .chk0).missing = 0 ∧ (u.check .chk0).watched = true := by
  decide +kernel

theorem test_set_evidence_params :
    (after (.setEvidenceParams 10 ⟨1, 2, 500⟩ ⟨0, 0, 1⟩) (ctlSlot 0x0D)).att.nextBoundary = 10
      ∧ (after (.setEvidenceParams 61 ⟨1, 2, 500⟩ ⟨0, 0, 1⟩) (ctlSlot 0x0D)).att.period = 1 := by
  decide +kernel

/-- 10.4: the result area of QUERY_STATUS is 416 bytes. -/
theorem test_query_status :
    (after .queryStatus (ctlSlot 0x0E)).posted.map (fun w => (w.addr, w.bytes.length))
      = [(4096 + 64 + 16, 416), (4096 + 64 + 4, 1)] := by decide +kernel

/-! ## Chains (chapter 7) -/

def header (state used capacity : Nat) : BlockHeader :=
  { next := 0#64, state := BitVec.ofNat 8 state, flags := 1#8, capacity := BitVec.ofNat 32 capacity,
    used := BitVec.ofNat 32 used }

/-- R138: a used value above the capacity makes the block bad: DONE with BAD_BLOCK, not walked. -/
theorem test_header_bad :
    (after (.blockHeaderRead .control (header 1 1032 1024)) (waiting .control .header false)).posted.map
      (fun w => (w.addr, w.bytes.take 2)) = [(4106, [1, 0]), (4116, [0, 0]), (4104, [3])] := by
  decide +kernel

/-- R142, R146: a park is averted by a remembered RESUME, with no CHAIN_PARKED. -/
theorem test_park_averted :
    ((after (.nextAddressRead .event 0) (waiting .event .next true)).evt.ctx.walk) = .next
      ∧ (after (.nextAddressRead .event 0) (waiting .event .next true)).prt.notice = 0#15 := by
  decide +kernel

/-- 7.4, a bad slot: length 12 at offset 128 of a block with used 200. -/
theorem test_slot_malformed :
    let s := { waiting .control (.slotHead 128) false with
      ctl := { (waiting .control (.slotHead 128) false).ctl with
        block := { used := 200, notify := true, count := 2 } } }
    (after (.slotHeadRead .control { ctlHead 0x0E with length := 12 }) s).ctl.block.count = 3
      ∧ (after (.slotHeadRead .control { ctlHead 0x0E with length := 12 }) s).posted.head?.map (·.bytes)
        = some [8] := by decide +kernel

/-- R154: the takes stamp the slot now and write TAKEN. -/
theorem test_event_takes :
    (after (.stamp 5 8 (pad 8)) (evtSlot 0x81)).evt.fifo.map (fun e => (e.group, e.kind)) = [(5, .stamp)]
      ∧ (after (.extend 255) (evtSlot 0x82)).posted.map (·.bytes) = [[1]]
      ∧ (after (.abandon 64) (evtSlot 0x83)).posted.map (·.bytes) = [[4]] := by decide +kernel

/-- R157, 7.7: the last write-back of a block that the walk has left finishes it DONE. -/
def written : State :=
  { evtSlot 0x81 with
    evt := { (evtSlot 0x81).evt with
      ctx := { (evtSlot 0x81).evt.ctx with walk := .next }
      blocks := [{ addr := 8192#64, notify := true, used := 128, outstanding := 1, left := true, count := 2,
                   low := some 7001, high := some 7003, bad := false, unfinished := false }]
      writeBacks := [{ block := 8192#64, seq := 7004 }] }
    posted := [{ chain := .event, block := 8192#64, addr := 8260, bytes := [2], ends := .writeBack }] }

theorem test_write_back_finishes :
    (after .writeBackComplete written).evt.blocks = []
      ∧ ((after .writeBackComplete written).posted.map (·.bytes)).drop 1
        = [leBytes 4 3 ++ leBytes 8 7001 ++ leBytes 8 7004, [3]] := by decide +kernel

/-- R139: the completion of the DONE write of a block with NOTIFY sets CTL_DONE. -/
def finishing (next : Option (BitVec 64)) : State :=
  { waiting .control (.finishing next) false with
    posted := [{ chain := .control, block := 4096#64, addr := 4104, bytes := [3], ends := .final true true }] }

theorem test_state_write_completes :
    (after (.blockStateWriteComplete .control) (finishing none)).prt.notice = 1#15
      ∧ (after (.blockStateWriteComplete .control) (finishing none)).ctl.ctx.walk = .next := by
  decide +kernel

/-- R147: a failed read of the control chain is a fault with cause READ_ERROR and CHAIN_FAULT (bit 4). -/
theorem test_read_fails :
    (after (.dmaReadFailed .control) (waiting .control .header false)).ctl.ctx.fault = some .readError
      ∧ (after (.dmaReadTimeout .capture) (waiting .capture .next false)).prt.notice = 0x10#15 := by
  decide +kernel

/-- R170: a failed write of the capture chain keeps every record, unplaced. -/
def packing (placed : Nat) : State :=
  { waiting .capture .none false with
    sqm := { atWork.sqm with next := 5003 }
    pst := { PST.powerOn with
      records := [aRecord 5001, aRecord 5002], placed := placed
      block := some { addr := 4096#64, capacity := 512, notify := true, used := 0, count := 0, first := 0,
                      last := 0 } } }

theorem test_write_fails :
    let s := { packing 1 with posted := [plainWrite .capture 4096 4160 [0]] }
    (after (.dmaWriteFailed ⟨.capture, 0⟩) s).pst.placed = 0
      ∧ (after (.dmaWriteFailed ⟨.capture, 0⟩) s).pst.records.length = 2 := by decide +kernel

/-- R147, 8.4: a failed result write leaves the TAKEN of its block on its way to host memory. -/
theorem test_taken_is_kept :
    let s := { waiting .control (.slotHead 0) false with
      posted := [plainWrite .control 4096 4180 [7], takenWrite .control 4096] }
    (after (.dmaWriteFailed ⟨.control, 0⟩) s).posted = [takenWrite .control 4096] := by decide +kernel

/-- R141: START at an address that is no multiple of 64 is a fault with cause ALIGN. -/
theorem test_start_misaligned :
    (after (.start .event) (atWork.setCtx .event { ChainCtx.powerOn with start := 8200#64 })).evt.ctx.fault
      = some .align := by decide +kernel

/-- R142: RESUME is ignored on an INACTIVE chain, and sets IGNORED. -/
theorem test_resume_ignored : (after (.resume .capture) atWork).cap.ctx.ignored = true := by decide +kernel

/-- R143: STOP in a block with unwalked slots finishes it PARTIAL with close cause STOP. -/
theorem test_stop_partial :
    (after (.stop .control) (waiting .control (.slotHead 64) false)).posted.map (fun w => w.bytes.take 2)
      = [[0, 4], [0, 0], [4]] := by decide +kernel

/-- R143: a STOP during a take waits for the slot's answer; the block, with slots left, is then PARTIAL. -/
theorem test_stop_waits_for_the_take :
    let s := after (.stop .control) (ctlSlot 0x0A)
    s.ctl.ctx.state = .active ∧ (after (.setSeed 5) s).ctl.ctx.state = .inactive
      ∧ ((after (.setSeed 5) s).posted.getLast?.map (·.bytes)) = some [4] := by decide +kernel

/-! ## Capture (chapter 8) -/

/-- R166: the first record of a block arms the flush timer, by 50,000 ns at the default. -/
theorem test_record_placed :
    (after .recordPlace (packing 0)).pst.placed = 1
      ∧ (after .recordPlace (packing 0)).pst.flushAt = some (50000 * 4294967296) := by decide +kernel

/-- R167: the flush timer closes the block with cause FLUSH. -/
def toFlush : State :=
  { packing 1 with
    clock := { atWork.clock with own := 7 }
    pst := { (packing 1).pst with
      flushAt := some 7
      block := some { addr := 4096#64, capacity := 512, notify := true, used := 96, count := 1,
                      first := 5001, last := 5001 } } }

theorem test_flush :
    (after .flushTimerExpiry toFlush).posted.map (fun w => w.bytes.take 2) = [[0, 2], [96, 0], [3]] := by
  decide +kernel

/-- R168: the records of the block leave PST at the completion of its DONE write. -/
def closing : State :=
  { packing 1 with
    pst := { (packing 1).pst with block := none }
    cap := { (packing 1).cap with closing := some { notify := true } }
    posted := [{ chain := .capture, block := 4096#64, addr := 4104, bytes := [3], ends := .captureDone }] }

theorem test_capture_done :
    (after .captureDoneComplete closing).pst.records.map (·.seq) = [5002]
      ∧ (after .captureDoneComplete closing).prt.notice = 4#15 := by decide +kernel

/-- R172: a low mark that is not below the high mark is refused with RANGE (4). -/
theorem test_set_capture_params :
    (after (.setCaptureParams 1000 8 8 0 0) (ctlSlot 0x0F)).pst.params.high = 768
      ∧ (after (.setCaptureParams 1000 8 7 0 0) (ctlSlot 0x0F)).pst.params.high = 8 := by decide +kernel

/-! ## Port and scopes (chapter 9) -/

/-- R191: PART_ID. -/
theorem test_part_id : State.reset.readWindow 0 = 0x44163D11#32 := by decide

/-- R180: after power-on every chain reads INACTIVE. -/
theorem test_chain_register : State.reset.readWindow 0x10 = 0#32 := by decide

/-- R176: 8 and 16 bits of PART_ID, 64 bits of a register that is not an address. -/
theorem test_narrow_reads :
    atWork.hostRead 3 1 = some 0x44#64 ∧ atWork.hostRead 0 2 = some 0x3D11#64 ∧ atWork.hostRead 0 8 = none := by
  decide +kernel

/-- R181: the upper half of a start address is written alone. -/
theorem test_chain_address :
    (after (.chainAddrWrite .event .high 0x12345678) (atWork.setCtx .event
      { ChainCtx.powerOn with start := 0xFFFFFFFF00000040#64 })).evt.ctx.start = 0x1234567800000040#64 := by
  decide +kernel

/-- 9.4, notices and messages: enabling DISCIPLINE_CHANGE (bit 6) while it is set sends a message. -/
theorem test_notice_messages :
    let s := { atWork with prt := { atWork.prt with notice := 0x0044#15, enable := 0x0014#15 } }
    (after (.noticeEnableWrite 0x54) s).wire = [.interrupt]
      ∧ (after (.noticeClear 0x44) s).prt.notice = 0#15 := by decide +kernel

/-- R184: a message kept while the vector was masked is sent when it is unmasked. -/
theorem test_vector_unmasked :
    (after .vectorUnmasked { atWork with ep := { atWork.ep with masked := true, vectorPending := true } }).wire
      = [.interrupt] := by decide +kernel

/-- R179, R176. -/
theorem test_ignored_writes :
    (after (.chainCommandUndefined .control) atWork).ctl.ctx.ignored = true
      ∧ after (.registerWriteIgnored { offset := 0x40, width := 4, value := 1 }) atWork = atWork := by
  decide +kernel

/-- R71, R186: LINES keeps the urgent kinds, closes admission and sets RESET_DONE (bit 14). -/
theorem test_lines_scope :
    ((after .lines (withLine { openLine with urgentA := 9 })).line 0).urgentA = 9
      ∧ (after .lines (withLine { openLine with urgentA := 9 })).prt.notice = 0x6000#15 := by decide +kernel

/-- R121: a running group's ABANDON record is created, and its entry is IDLE at once. -/
theorem test_auctions_scope :
    let s := auction { group9 with phase := .call, callTimer := false } ⟨56000, 0⟩ ⟨56000, 4⟩
    ((after .auctions s).group 9).phase = .idle
      ∧ (after .auctions s).sqm.agenda.map (fun e => (e.group, e.body.code)) = [(9, 4)] := by decide +kernel

/-- R173, R174: CHAINS with records held creates a DISCARD with their numbers and waits for its release. -/
theorem test_chains_scope :
    (after .chains (packing 0)).sqm.agenda.map (·.body) = [.discard 5001 5002]
      ∧ (after .chains (packing 0)).prt.chains = .waitDiscard := by decide +kernel

/-- R186: once the DONE write is through, the effect comes. -/
theorem test_chains_effect :
    let s := { packing 0 with prt := { atWork.prt with chains := .waitDone } }
    (after .chainsResetEffect s).pst.records = [] := by decide +kernel

/-- R187, R188. -/
theorem test_full_and_power :
    (after .full (packing 0)).prt.notice = 0x4000#15
      ∧ (after .conventionalReset (packing 0)).prt.notice = 0#15
      ∧ (after .powerOn (after (.supplyOutOfRange .v09) (packing 0))).rail09 = true := by decide +kernel

/-- R2: a time set after a frame has started in its period is taken with the next one, so that the frame's stamp
is the time of the whole period, and lies before the stamp of the CLOCK SET record. -/
theorem test_set_time_after_a_frame :
    let s := { ctlSlot 1 with
      lines := { l0 := openLine, l1 := openLine, l2 := Line.powerOn, l3 := Line.powerOn } }
    let t := after (.frameStart 1) (after (.setTime ⟨90, 500⟩) (after (.frameStart 0) s))
    (t.line 0).frame = some (.stamped ⟨0, 0, 0⟩ .unsynchronized)
      ∧ t.sqm.agenda.map (·.stamp) = [⟨0, 0, 4⟩]
      ∧ (t.line 1).frame = some (.stamped ⟨0, 90, 500⟩ .unsynchronized) := by decide +kernel

/-- R78: two releases may precede the initial set of their period; the WINDOW released second draws its close,
and the set then abandons the group in CLOSING. -/
theorem test_releases_before_a_set :
    let d := disciplined .acquiring 0 0 (goodSecond (-1000))
    let s : State := { d with
      tb := { d.tb with ns := 8 }, clock := { d.clock with prev := ⟨0, 4⟩ }
      atu := (d.setGroup 9 { group9 with phase := .call, callTimer := false, windowTimer := false }).atu
      sqm := { d.sqm with created := 2, agenda :=
        [waitingRecord 255 (.alarm 3 0), { waitingRecord 9 (.window 0 0 none) with order := 1 }] } }
    let t := after .release (after .release s)
    let u := after .actionInstant t
    t.pst.records.map (·.body.code) = [9, 7] ∧ t.actionDue = true ∧ (t.group 9).phase = .closing
      ∧ (u.group 9).abandonPending = true
      ∧ u.sqm.agenda.any (fun e => match e.body with
        | .abandon a => a.phase == .closing && a.drawn == (t.group 9).drawn
        | _ => false) = true := by decide +kernel

/-- Two groups in CALL whose WINDOW records wait, in the period of an initial set to 60,000 s: both draws lie
in the span that the set skips. -/
def windowsBeforeSet : State :=
  let g : Group := { group9 with phase := .call, callTimer := false, windowTimer := false, close := ⟨37, 0⟩ }
  let w (n k : Nat) : Internal := { waitingRecord n (.window 0 0 none) with order := k, stamp := ⟨0, 35, k⟩ }
  let d := disciplined .acquiring 0 0 (goodSecond (-59964000000000))
  { d with
    tb := { d.tb with sec := 36 }, clock := { d.clock with prev := ⟨36, 0⟩ }
    att := { d.att with nextBoundary := 70000 }
    atu := ((d.setGroup 9 g).setGroup 10 g).atu
    sqm := { d.sqm with created := 2, agenda := [w 9 0, w 10 1] } }

/-- R78, R106: both WINDOW records may be released before the set, and their closes are past the time that it
gives. The set's record, stamped before these closes, comes before them (R75), and it finds both in CLOSING. -/
theorem test_two_windows_before_a_set :
    let t := after .release (after .release windowsBeforeSet)
    let u := after .actionInstant t
    (t.group 9).phase = .closing ∧ (t.group 10).phase = .closing ∧ t.actionDue = true
      ∧ t.sqm.agenda.map (fun e => (e.group, e.body.code)) = [(9, 8), (10, 8)]
      ∧ (u.group 9).abandonPending = true ∧ (u.group 10).abandonPending = true
      ∧ ((after .release t).du.state = .locked
        ∧ ((after .release t).pst.records.map (·.stamp)).getLast? = some ⟨0, 36, 0⟩) := by decide +kernel

/-- R78, R96: a release may come before the set of its period where an alarm was reached in that period. -/
theorem test_release_after_a_timer_before_a_set :
    let a := windowsBeforeSet.setAlarm 0 (some { period := 0, next := ⟨36, 0⟩, late := false })
    let t := after .release { a with clock := { a.clock with prev := ⟨35, 999999996⟩ } }
    (t.group 9).phase = .closing ∧ t.actionDue = true ∧ t.prt.notice.getLsbD 11 = true := by decide +kernel

/-- R78, R124: and where a boundary was. -/
theorem test_release_after_a_boundary_before_a_set :
    let b : State := { windowsBeforeSet with
      clock := { windowsBeforeSet.clock with prev := ⟨35, 999999996⟩ }
      att := { windowsBeforeSet.att with nextBoundary := 36 } }
    let v := after .release (after .attestBoundary b)
    (v.group 9).phase = .closing ∧ v.actionDue = true := by decide +kernel

/-- R11, R96: a CLOSE_LINE taken first counts for the step gate of its period, though an alarm was reached in
it. -/
theorem test_gate_after_a_timer :
    let a := (disciplined .locked 0 0 (goodSecond 60000)).setAlarm 0
      (some { period := 0, next := ⟨41000, 118⟩, late := false })
    let s : State := { a with
      tb := { a.tb with sec := 41000, ns := 120 }, clock := { a.clock with prev := ⟨41000, 116⟩ }
      att := { a.att with nextBoundary := 41001 }, lines := (withLine openLine).lines, ctl := (ctlSlot 5).ctl }
    (after .actionInstant (after (.closeLine 0) s)).tb.epoch = 1
      ∧ (after .actionInstant s).tb.epoch = 0 ∧ (after .actionInstant s).tb.demand.isSome = true := by
  decide +kernel

/-- R96, R36, R190: an alarm and an action instant that the last period reached have taken effect when the
oscillator stops. -/
theorem test_oscillator_stop_in_a_period :
    let s : State := { atWork.setAlarm 0 (some { period := 0, next := ⟨0, 2⟩, late := false }) with
      tb := { atWork.tb with ns := 4 } }
    let t := after .oscillatorStop (disciplined .suspect 0 0 (goodSecond 0))
    (after .oscillatorStop s).prt.notice = 0x0800#15 ∧ (after .oscillatorStop s).alarm 0 = none
      ∧ t.du.state = .locked ∧ t.osc = false := by decide +kernel

/-- R190: with the oscillator stopped a marker is not latched; after its return the counter goes on. -/
theorem test_oscillator :
    (after .oscillatorPeriod (after .oscillatorStop atWork)).tb.ns = 0
      ∧ (after .oscillatorPeriod (after .oscillatorReturn (after .oscillatorStop atWork))).tb.ns = 4 := by
  decide +kernel

/-! ## What reads now in the period of an action instant -/

/-- The good second of 1.4 that steps back by 75,000 ns, at 41,000 s 120 ns of epoch 3. -/
def stepsBack : State :=
  { disciplined .locked 200 0 (goodSecond 75000) with
    tb := { atWork.tb with sec := 41000, ns := 120, epoch := 3 }
    clock := { atWork.clock with period := 1, prev := ⟨41000, 116⟩ }
    att := { atWork.att with nextBoundary := 41001 } }

/-- R2: the latch of a check input taken in the step's period is one of the time that the step gave, whatever
comes between it and ACTION_INSTANT. -/
theorem test_check_latch_keeps :
    let s := after (.checkRisingTransition .chk0) (stepsBack.setCheck .chk0 enabledCheck)
    let t := after .actionInstant (s.setLine 1 { s.line 1 with opened := true })
    ((s.check .chk0).pulse.map (·.stamp)) = some ⟨4, 40999, 999925120⟩
      ∧ (t.check .chk0).pulse = (s.check .chk0).pulse ∧ t.now = ⟨4, 40999, 999925120⟩ := by decide +kernel

/-- R37, R176, R178: PART_STATE shows the new state, class and epoch from the action instant on, and NOTICE the
bits that it and an alarm of the period set (bits 6 and 11), before their commands are taken. -/
theorem test_reads_in_force :
    let a := (disciplined .suspect 0 0 (goodSecond 0)).setAlarm 0 (some { period := 0, next := ⟨0, 2⟩, late := false })
    let s : State := { a with tb := { a.tb with ns := 4 } }
    stepsBack.hostRead 4 4 = (after .actionInstant stepsBack).hostRead 4 4
      ∧ stepsBack.hostRead 6 2 = some 4#64
      ∧ s.hostRead 8 4 = some 0x840#64 ∧ s.prt.notice = 0#15 := by decide +kernel

/-- R135: settings taken before the step that the boundary's period brings keep the old boundary back. -/
theorem test_evidence_before_a_step :
    let s : State := { stepsBack with
      ctl := (ctlSlot 0x0D).ctl
      tb := { stepsBack.tb with sec := 41010 }
      clock := { stepsBack.clock with prev := ⟨41009, 999999996⟩ }
      att := { stepsBack.att with period := 10, nextBoundary := 41010 } }
    let t := after (.setEvidenceParams 1 ⟨1, 2, 500⟩ ⟨0, 0, 1⟩) s
    t.sqm.agenda.all (fun e => e.body.code != 10) = true ∧ t.att.nextBoundary = 41010
      ∧ t.now = ⟨4, 41009, 999925120⟩ := by decide +kernel

/-- R46: a boundary taken before the action instant of its period: E at the end counts in the maximum. -/
theorem test_boundary_before_the_instant :
    let s : State := { disciplined .locked 0 0 (goodSecond 40000) with
      tb := { atWork.tb with sec := 1 }, clock := { atWork.clock with period := 1, prev := ⟨0, 999999996⟩ } }
    (after .attestBoundary s).sqm.agenda.any (fun e => match e.body with
      | .attest a => a.eEnd == 40100 && decide (a.eEnd ≤ a.eMax)
      | _ => false) = true := by decide +kernel

/-- R188: an endpoint that has not been configured reads no register and takes no write. -/
theorem test_not_configured :
    let s : State := { atWork with ep := { atWork.ep with configured := false } }
    s.hostRead 0 4 = none ∧ after (.noticeEnableWrite 1) s = s
      ∧ (after .conventionalReset atWork).ep.configured = false := by decide +kernel

/-! ## Witnesses: the machine as a whole -/

theorem witness_StepTakesFront :
    ({ State.reset with pending := [.powerOn, .release] } : State).pending = .powerOn :: [.release]
      ∧ State.reset.pending = [] := ⟨rfl, rfl⟩

/-- A state with heads on three lines and one in the middle of its release meets every invariant. -/
theorem witness_invariants :
    tie3.timeOk ∧ tie3.boundOk ∧ tie3.linesOk ∧ tie3.sqm.agendaOk ∧ tie3.auctionsOk ∧ tie3.evidenceOk
      ∧ tie3.chainsOk := by
  refine ⟨?_, ?_, ?_, ?_, ?_, ?_, ?_⟩ <;> decide +kernel

theorem witness_StepKeepsStore :
    ({ packing 1 with pending := [.recordPlace] } : State).storeOk
      ∧ ∃ t, step { packing 1 with pending := [.recordPlace] } = .next t := by
  refine ⟨⟨by decide, by decide, by decide, by decide, by decide, ?_⟩, ⟨_, rfl⟩⟩
  simp [packing, waiting, State.setCtx, SQM.numberEnd, numbered, aRecord, atWork, State.reset, SQM.powerOn]

theorem witness_StepKeeps : ∃ t, step { tie3 with pending := [.release] } = .next t := ⟨_, rfl⟩

theorem witness_PowerOnAndFull :
    atWork.powered = true ∧ ({ atWork with rail33 := false } : State).powered = false
      ∧ ({ atWork with rail09 := false } : State).powered = false ∧ atWork.ep.linkUp = true
      ∧ atWork.ep.configured = true
      ∧ ({ atWork with ep := { atWork.ep with linkUp := false } } : State).ep.linkUp = false
      ∧ ({ atWork with ep := { atWork.ep with configured := false } } : State).ep.configured = false := by decide

/-- An instant with nothing left of the period, just below a carry, at one, and at the wrap. -/
def atInstant (sec ns : Nat) : State :=
  { atWork with tb := { atWork.tb with sec := sec, ns := ns }
                clock := { atWork.clock with prev := ⟨sec, ns⟩ } }

theorem witness_Oscillator :
    ((atInstant 0 999999995).ready ∧ (atInstant 0 999999995).periodDone ∧ (atInstant 0 999999995).timeOk)
      ∧ ((atInstant 0 999999996).ready ∧ (atInstant 0 999999996).periodDone
        ∧ (atInstant 0 999999996).timeOk)
      ∧ ((atInstant 281474976710655 999999999).ready ∧ (atInstant 281474976710655 999999999).periodDone
        ∧ (atInstant 281474976710655 999999999).timeOk)
      ∧ ({ atWork with osc := false } : State).osc = false := by decide +kernel

/-- The stop after an action instant, and after an alarm's instant. -/
theorem witness_Oscillator_stop :
    let s := disciplined .suspect 0 0 (goodSecond 0)
    let a : State := { atWork.setAlarm 0 (some { period := 0, next := ⟨0, 2⟩, late := false }) with
      tb := { atWork.tb with ns := 4 } }
    s.acts (goodSecond 0) [] ∧ (after .actionInstant s).missingDue = false
      ∧ (after .actionInstant s).holdoverDue = false
      ∧ (a.powered = true ∧ a.osc = true ∧ a.owed = false ∧ a.alarmDue 0 = true)
      ∧ ({ atWork with rail33 := false } : State).powered = false := by decide +kernel

/-! ## Witnesses: time base and discipline -/

theorem witness_IncrementFollowsCorrection :
    (500000 : Int).natAbs ≤ 500000 ∧ (-500000 : Int).natAbs ≤ 500000 ∧ (-500000 : Int) < 500000 := by decide

/-- A control slot with the counter at 1 s in an epoch, DU in a state. -/
def timeSlot (kind epoch : Nat) (st : DState) : State :=
  { ctlSlot kind with
    tb := { atWork.tb with sec := 1, epoch := epoch }
    clock := { atWork.clock with prev := ⟨1, 0⟩ }
    du := { atWork.du with state := st } }

/-- In the last epoch, and in the first one; in LOCKED; and after now has been read, with a legal target. -/
theorem witness_SetTime :
    let target : HostTime := ⟨9, 0⟩
    let ok (s : State) : Prop := s.requestAt 0x01 0 (ctlHead 1) ∧ (s.atSetTime target).evidenceDone
      ∧ (s.atSetTime target).du.state = .free ∧ (s.atSetTime target).tb.ns < 1000000000
    ok (timeSlot 1 65535 .free) ∧ ok (timeSlot 1 0 .free)
      ∧ (timeSlot 1 0 .free).done.clock.read = false
      ∧ (ok (timeSlot 1 0 .free).reading ∧ (timeSlot 1 0 .free).reading.done.clock.read = true
        ∧ ((timeSlot 1 0 .free).reading.atSetTime target).clock.period = 1)
      ∧ (timeSlot 1 0 .locked).requestAt 0x01 0 (ctlHead 1)
      ∧ ((timeSlot 1 0 .locked).atSetTime target).du.state ≠ .free := by decide +kernel

theorem witness_SetTime_noRecordWaits : ¬ ((timeSlot 1 0 .free).atSetTime ⟨9, 0⟩).waits 3 := by
  have h : ((timeSlot 1 0 .free).atSetTime ⟨9, 0⟩).sqm.agenda = [] := by decide +kernel
  rintro ⟨e, he, -⟩; rw [h] at he; exact absurd he List.not_mem_nil

theorem witness_SettingsOfTime :
    (timeSlot 2 0 .locked).requestAt 0x02 0 (ctlHead 2) ∧ (timeSlot 2 0 .holdover).requestAt 0x02 0 (ctlHead 2)
      ∧ (timeSlot 3 0 .suspect).requestAt 0x03 0 (ctlHead 3)
      ∧ (timeSlot 3 0 .reacquiring).requestAt 0x03 0 (ctlHead 3)
      ∧ (steeringOf 8 16 1 500000 1000000000).isSome ∧ (steeringOf 9 16 1 500000 1000000000).isNone
      ∧ (limitsOf 1 1000000 500000).isSome ∧ (limitsOf 0 1000000 500000).isNone := by decide +kernel

/-- DU IN_SYNC, the reference marker 0 at own time 0, its latch holding a frame or not. -/
def inSync (own : Nat) (latch : Option FrameLatch) (present : Bool) : State :=
  { atWork with
    clock := { atWork.clock with own := own * 4294967296 }
    du := { atWork.du with inSync := true, present := present, refOwn := some 0, latch := latch
                           expected := some 7 } }

def latched (v : Verdict) (q : Quality) (endOwn : Nat) : Option FrameLatch :=
  some { fields := { seconds := 7, utcOffset := 37, leap := .none, quality := q, accuracy := 100, source := 1 }
         verdict := v, endOwn := endOwn * 4294967296 }

theorem witness_ReferenceReceiver :
    atWork.ready ∧ atWork.du.inSync = false ∧ (inSync 0 none false).ready
      ∧ (inSync 0 none false).du.inSync = true ∧ (inSync 0 none false).du.receiver ≠ .discarding := by
  decide +kernel

theorem witness_ReferenceReceiver_discarding :
    let s := after (.refFrameEnd (pad 24) .symbol25) (inSync 0 none false)
    s.ready ∧ s.du.inSync = true ∧ s.du.receiver = .discarding := by decide +kernel

theorem witness_Marker_early :
    let s := inSync 998999999 (latched .correct .primary 0) true
    s.ready ∧ s.du.inSync = true ∧ s.du.present = true ∧ s.du.refOwn = some 0
      ∧ (s.clock.own - 0) / 4294967296 < 999000000 := by decide +kernel

/-- Markers at both ends of the interval, one beyond it, and one with each fault. -/
theorem witness_Marker_taken :
    ((inSync 999000000 (latched .correct .primary 998000000) true).ready
        ∧ 1000000 ≤ (999000000 * 4294967296 - 998000000 * 4294967296) / 4294967296)
      ∧ (inSync 1001000000 (latched .crc .primary 0) true).ready
      ∧ (inSync 1001000001 (latched .correct .primary 0) true).ready
      ∧ (inSync 1000000000 none true).ready
      ∧ (inSync 1000000000 (latched .length .primary 0) true).ready
      ∧ (inSync 1000000000 (latched .format .primary 0) true).ready
      ∧ (inSync 1000000000 (latched .correct .unusable 0) true).ready
      ∧ (inSync 1000000000 (latched .correct .primary 999000001) true).ready
      ∧ (inSync 5000000000 (latched .correct .primary 0) false).ready := by decide +kernel

theorem witness_ActionInstant :
    let s := disciplined .suspect 5 0 (goodSecond 800)
    s.acts (goodSecond 800) [] ∧ s.evidenceDone ∧ (goodSecond 800).cause = .goodConsistent
      ∧ (after .actionInstant s).missingDue = false ∧ (after .actionInstant s).holdoverDue = false
      ∧ atWork.actionDue = false ∧ atWork.missingDue = false ∧ atWork.holdoverDue = false := by
  decide +kernel

/-- Changes of the state, of the class and of the UTC offset, and a second that is not good. -/
theorem witness_ActionInstant_changes :
    let sec : Second := { goodSecond 800 with utcOffset := 37 }
    let s := disciplined .reacquiring 5 (-5) sec
    let d : State := { s with du := { s.du with cls := .degraded } }
    let n : Second := { goodSecond 0 with cause := .noFrame, correct := false }
    d.acts sec [] ∧ d.evidenceDone ∧ (after .actionInstant d).du.state = .locked
      ∧ (after .actionInstant d).du.cls = .traceable ∧ (after .actionInstant d).tb.utcOffset = 37
      ∧ (disciplined .locked 5 0 n).acts n [] ∧ (disciplined .locked 5 0 n).evidenceDone := by decide +kernel

theorem witness_ServoSecond :
    (disciplined .locked 120 0 (goodSecond 50000)).acts (goodSecond 50000) []
      ∧ (goodSecond 50000).theta.natAbs ≤ (disciplined .locked 120 0 (goodSecond 50000)).du.steering.threshold := by
  decide +kernel

/-- A backward demand that the epoch limit holds with the gate open. -/
theorem witness_ServoSecond_epochLimit :
    let d := disciplined .locked 120 0 (goodSecond 60000)
    let s : State := { d with tb := { d.tb with epoch := 65535 } }
    s.acts (goodSecond 60000) [] ∧ s.epochHolds (goodSecond 60000).d ∧ s.gateConditions
      ∧ s.du.steering.threshold < (goodSecond 60000).theta.natAbs := by decide +kernel

theorem witness_StepApplied :
    let s := disciplined .reacquiring 200 (-200) (goodSecond 50001)
    s.acts (goodSecond 50001) [] ∧ s.evidenceDone ∧ s.du.steering.never = false
      ∧ s.du.steering.threshold < (goodSecond 50001).theta.natAbs ∧ s.gateConditions
      ∧ ¬ s.epochHolds (goodSecond 50001).d := by decide +kernel

theorem witness_noRecordWaits (k : Nat) (sec : Second) : ¬ (disciplined .locked 0 0 sec).waits k := by
  rintro ⟨e, he, -⟩; exact absurd he List.not_mem_nil

/-- With a demand held: a second that leads to HOLDOVER, to FREE, and one in SUSPECT. -/
theorem witness_StepWithdrawn :
    let n : Second := { goodSecond 0 with cause := .noFrame, correct := false }
    let ok (a b : DState) : Prop :=
      let s := disciplined a 0 0 n
      let h : State := { s with tb := { s.tb with demand := some { theta := 50001, d := 50001 } } }
      h.acts n [] ∧ (after .actionInstant h).du.state = b
    ok .suspect .holdover ∧ ok .acquiring .free ∧ ok .locked .suspect := by decide +kernel

/-- A line that is OPEN closes the gate; epoch 65,535 holds a backward step; NEVER raises none. -/
theorem witness_StepHeldOrWithdrawn :
    let s := disciplined .locked 0 0 (goodSecond 50001)
    let shut : State := { s with lines := (withLine openLine).lines }
    let last : State := { s with tb := { s.tb with epoch := 65535 } }
    let never : State := { s with du := { s.du with steering := { s.du.steering with never := true } } }
    (shut.acts (goodSecond 50001) [] ∧ ¬ shut.gateConditions ∧ shut.tb.demand = none)
      ∧ (last.acts (goodSecond 50001) [] ∧ last.epochHolds (goodSecond 50001).d)
      ∧ (never.acts (goodSecond 50001) [] ∧ never.du.steering.never = true)
      ∧ (disciplined .locked 0 0 (goodSecond (-50000))).acts (goodSecond (-50000)) [] := by decide +kernel

theorem witness_InitialSet :
    let s := disciplined .acquiring 0 0 (goodSecond 1)
    let last : State := { s with tb := { s.tb with epoch := 65535 } }
    s.acts (goodSecond 1) [] ∧ s.evidenceDone ∧ s.du.state = .acquiring ∧ ¬ s.epochHolds (goodSecond 1).d
      ∧ last.acts (goodSecond 1) [] ∧ last.evidenceDone ∧ last.epochHolds (goodSecond 1).d := by
  decide +kernel

theorem witness_MissingAndHoldover :
    let s : State := { atWork with du := { atWork.du with state := .suspect, missingAt := some 0 } }
    let h : State := { atWork with du := { atWork.du with state := .reacquiring } }
    s.ready ∧ s.du.missingAt = some 0 ∧ 0 ≤ s.clock.own ∧ h.ready ∧ h.du.holdNext ≤ h.clock.own := by
  decide +kernel

/-! ## Witnesses: lines -/

theorem witness_LinkAndFrameStart :
    atWork.ready ∧ (atWork.line 1).up = false ∧ (withLine inFrame).ready ∧ ((withLine inFrame).line 0).up = true
      ∧ (withLine openLine).ready ∧ ((withLine openLine).line 0).frame = none := by decide +kernel

/-- A frame of kind 17 with the given group byte and `n` payload bytes, and its CRC. -/
def frameOf (kind group n : Nat) : List Byte :=
  let head := [BitVec.ofNat 8 kind, BitVec.ofNat 8 group, 0, 1, 0, BitVec.ofNat 8 n, 0, 0] ++ pad n
  head ++ beBytes 4 (crc32 head).toNat

/-- Each refusal reason is met, groups 64 and 254 at their boundaries. -/
theorem witness_FrameRefused :
    (withLine inFrame).ready
      ∧ inFrame.refusal .closed (frameOf 17 5 8) false .eof = some .closed
      ∧ inFrame.refusal (.stamped ⟨0, 0, 0⟩ .traceable) (frameOf 17 5 7) false .eof = some .length
      ∧ inFrame.refusal (.stamped ⟨0, 0, 0⟩ .traceable) (frameOf 17 5 8 ++ [0]) false .eof = some .length
      ∧ inFrame.refusal (.stamped ⟨0, 0, 0⟩ .traceable) ((frameOf 17 5 8).set 0 18) false .eof = some .crc
      ∧ inFrame.refusal (.stamped ⟨0, 0, 0⟩ .traceable) (frameOf 0 5 8) false .eof = some .kind
      ∧ inFrame.refusal (.stamped ⟨0, 0, 0⟩ .traceable) (frameOf 17 64 8) false .eof = some .group
      ∧ inFrame.refusal (.stamped ⟨0, 0, 0⟩ .traceable) (frameOf 17 254 8) false .eof = some .group
      ∧ ({ inFrame with fifo := List.replicate 32 (headAt 0) } : Line).refusal
          (.stamped ⟨0, 0, 0⟩ .traceable) (frameOf 17 255 8) false .eof = some .full := by decide +kernel

/-- Accepted at the smallest payload, for groups 63 and 255, with 31 entries before it. -/
theorem witness_FrameAccepted :
    (withLine inFrame).ready ∧ (withLine openLine).ready
      ∧ (crc32 ((frameOf 17 63 8).take 16)).toNat = ofBe (slice (frameOf 17 63 8) 16 4)
      ∧ inFrame.refusal (.stamped ⟨0, 0, 0⟩ .traceable) (frameOf 17 63 8) false .eof = none
      ∧ ({ inFrame with fifo := List.replicate 31 (headAt 0) } : Line).refusal
          (.stamped ⟨0, 0, 0⟩ .traceable) (frameOf 17 255 8) false .eof = none := by decide +kernel

theorem witness_ReturnDirection :
    let s := withLine { openLine with acks := [.refuse 1 .crc], tx := .joined }
    let r := withLine { openLine with acks := [.refuse 1 .crc], tx := .response, flowDue := true }
    let f := withLine { openLine with flowDue := true }
    s.ready ∧ (s.line 0).tx ≠ .idle ∧ (s.line 0).acks = .refuse 1 .crc :: [] ∧ (s.line 0).up = true
      ∧ r.ready ∧ (r.line 0).tx = .response
      ∧ f.ready ∧ (f.line 0).flowDue = true ∧ (f.line 0).tx = .idle ∧ (f.line 0).up = true := by
  decide +kernel

/-- A release, the end of a DONE write, the CHAINS effect and SET_SEQUENCE change the fill, the first past the
high mark. -/
theorem witness_FlowControl :
    let high : State := { tie3 with pst := { tie3.pst with params := { tie3.pst.params with high := 1, low := 0 } } }
    atWork.prt.notice.getLsbD 10 = false ∧ high.ready ∧ (after .release high).pst.records.length = 1
      ∧ (closing.ready ∧ (after .captureDoneComplete closing).pst.records.length = 1)
      ∧ ((packing 0).ready ∧ (after .chains (packing 0)).pst.records = [])
      ∧ ((ctlSlot 7).ready ∧ (after (.setSequence 500 9) (ctlSlot 7)).pst.records.length = 1) := by
  decide +kernel

/-! ## Witnesses: the merge -/

theorem witness_AtMostOneReleasable :
    tie3.sqm.tie ≤ 4 ∧ tie3.sqm.exhausted = false ∧ tie3.headStamp (.line 2) = some ⟨1, 70000, 500100⟩
      ∧ tie3.ready ∧ tie3.workDue = false ∧ tie3.boundaryDue = false ∧ atWork.ready
      ∧ allSources.all (fun a => !atWork.releasable a) = true
      ∧ tie3.releasable (.line 2) = true ∧ tie3.contested (.line 2) ⟨1, 70000, 500100⟩ = true
      ∧ tie3.contested .engine ⟨1, 70000, 500099⟩ = false := by decide +kernel

theorem witness_ReleaseOfLine :
    tie3.releases (.line 2) ∧ (tie3.line 2).fifo = headAt 0 :: [] := by decide +kernel

/-- A CLOSE drawn past the time before the set of its period. -/
theorem witness_ReleaseOfLine_workFirst :
    let w : Internal := { waitingRecord 9 (.close ⟨0, 40, 0⟩ 0 0 0) with stamp := ⟨0, 40, 0⟩ }
    let s : State := { windowsBeforeSet with sqm := { windowsBeforeSet.sqm with agenda := [w] } }
    s.ready ∧ s.boundaryDue = false ∧ s.workFirst = true ∧ s.done.workDue = false
      ∧ s.done.boundaryDue = false := by decide +kernel

/-- The engine FIFO holds one entry, the chain having gone on. -/
def engineHead (kind : EngineKind) (group : Nat) (g : Group) : State :=
  let s := auction g ⟨56000, 0⟩ ⟨56000, 4⟩
  { s with
    evt := { ctx := { ChainCtx.powerOn with state := .active, walk := .next }
             fifo := [{ stamp := ⟨1, 56000, 0⟩, cls := .traceable, kind := kind, group := group, tag := 9#32,
                        payload := [], block := 8192#64, offset := 0, writeBack := true }]
             blocks := [{ addr := 8192#64, notify := true, used := 128, outstanding := 1, left := false,
                          count := 0, low := none, high := none, bad := false, unfinished := false }]
             writeBacks := [] } }

def running9 : Group := { group9 with phase := .call, callTimer := false }

theorem witness_ReleaseOfStamp :
    let s := engineHead .stamp 9 running9
    s.releases .engine ∧ s.carries ∧ s.prt.chains ≠ .waitDone := by decide +kernel

/-- An extension left, in CALL and in CLOSING, with the new close ahead and past. -/
theorem witness_ReleaseOfEngineRequest :
    let e (k : EngineKind) (g : Group) := engineHead k 9 g
    ((e .extend running9).releases .engine ∧ (e .extend running9).carries)
      ∧ ((after .release (e .extend running9)).group 9).windowTimer = true
      ∧ (let past := e .extend { running9 with close := ⟨55969, 0⟩, windowTimer := false }
         past.releases .engine ∧ (after .release past).sqm.agenda.map (·.body) = [.window 0 0 none])
      ∧ (let c := e .extend { running9 with phase := .closing, windowTimer := false, closeTimer := true
                                            drawn := some ⟨1, 56174, 164000000⟩ }
         c.releases .engine ∧ ((after .release c).group 9).close = ⟨56030, 0⟩) := by
  decide +kernel

/-- None left, a CLOSED group, an abandonment pending, and group 255. -/
theorem witness_ReleaseOfEngineRequest_refused :
    let e (k : EngineKind) (g : Group) := engineHead k 9 g
    (e .extend { running9 with used := 2 }).releases .engine
      ∧ (e .extend { running9 with phase := .closed, windowTimer := false }).releases .engine
      ∧ (e .abandon running9).releases .engine
      ∧ (e .abandon { running9 with abandonPending := true }).releases .engine
      ∧ (engineHead .extend 255 running9).releases .engine
      ∧ (engineHead .abandon 255 running9).releases .engine := by
  decide +kernel

/-- An EXTEND in the period of a servo second, which changes nothing that it reads, and in that of an initial
set that puts the new close into the past. -/
theorem witness_ReleaseOfEngineRequest_reads :
    let e (sec : Second) (st : DState) (g : Group) : State :=
      { engineHead .extend 9 g with
        du := (disciplined st 0 0 sec).du, clock := { (engineHead .extend 9 g).clock with period := 1 } }
    let a := e (goodSecond 4) .locked running9
    let b := e (goodSecond (-99000000000)) .acquiring { running9 with close := ⟨56020, 0⟩ }
    (a.releases .engine ∧ a.workDue = true ∧ ((after .release a).group 9).windowTimer = true)
      ∧ b.releases .engine ∧ b.workDue = true ∧ (b.releaseReading .engine).tb ≠ b.tb
      ∧ ((after .release b).group 9).windowTimer = false := by decide +kernel

/-- The agenda holds one record of group 9, stamped before now. -/
def agendaHead (body : Body) (g : Group) : State :=
  let s := auction g ⟨56000, 0⟩ ⟨56000, 4⟩
  { s with sqm := { s.sqm with agenda := [waitingRecord 9 body], created := 1 } }

theorem witness_ReleaseOfGroupRecord :
    let ok (b : Body) : Prop :=
      (agendaHead b running9).releases .internal ∧ b.isGroup = true ∧ b.isWindow = false
    ok (.schedule { disarm := true, phase := .armed, m := 0, w := 0, x := 0, requested := none,
                    effective := none, close := none })
      ∧ ok (.phase false) ∧ ok (.close ⟨1, 56000, 0⟩ 0 0 0) ∧ ok (running9.abandonBody .set 1) := by
  decide +kernel

/-- The last ABANDON of an AUCTIONS scope and one that is not, the DISCARD of a CHAINS scope, and the other
records without a group. -/
theorem witness_ReleaseOfOtherRecord :
    let only (e : Internal) (s : State) : State :=
      let t := auction running9 ⟨56000, 0⟩ ⟨56000, 4⟩
      { t with sqm := { t.sqm with agenda := e :: s.sqm.agenda, created := 2 }, prt := s.prt }
    let reset (n : Nat) : Internal := waitingRecord n (running9.abandonBody .reset 1)
    let a : State := { atWork with prt := { atWork.prt with auctions := .waitAbandon } }
    let more : State := { a with sqm := { a.sqm with agenda := [{ reset 10 with order := 1 }] } }
    let d : State := { atWork with prt := { atWork.prt with chains := .waitDiscard } }
    ((only (reset 9) a).releases .internal ∧ (after .release (only (reset 9) a)).prt.auctions = .idle)
      ∧ ((only (reset 9) more).releases .internal
        ∧ (after .release (only (reset 9) more)).prt.auctions = .waitAbandon)
      ∧ ((only (waitingRecord 255 (.discard 1 2)) d).releases .internal
        ∧ (after .release (only (waitingRecord 255 (.discard 1 2)) d)).prt.notice = 0x4000#15)
      ∧ (only (waitingRecord 255 (.alarm 3 0)) atWork).releases .internal
      ∧ (only (waitingRecord 255 (.run 0 1)) atWork).releases .internal
      ∧ (only (waitingRecord 255 (.clock 0 none (.offset 0 37))) atWork).releases .internal := by decide +kernel

/-- A draw that lies ahead, one at or before now, and one inside a span that was skipped. -/
theorem witness_ReleaseOfWindow :
    let s := agendaHead (.window 0 0 none) { running9 with windowTimer := false }
    let p := agendaHead (.window 0 0 none) { running9 with windowTimer := false, w := 0, close := ⟨55999, 0⟩ }
    let o := agendaHead (.window 0 0 none)
      { running9 with windowTimer := false, passedOver := some ⟨1, 56300, 0⟩ }
    (s.releases .internal ∧ ((s.group 9).drawnClose (genDraw 1#32) 0).ble s.now = true)
      ∧ (p.releases .internal ∧ ((p.group 9).drawnClose (genDraw 1#32) 0).ble p.now = true)
      ∧ (o.releases .internal ∧ ((o.group 9).drawnClose (genDraw 1#32) 0).ble ⟨1, 56300, 0⟩ = true)
      ∧ ((s.group 9).drawnClose (genDraw 1#32) 1).ble s.now = false := by decide +kernel

theorem witness_SetSequence :
    (ctlSlot 7).requestAt 0x07 0 (ctlHead 7) ∧ (ctlSlot 7).quiet = true
      ∧ ({ ctlSlot 7 with lines := (withLine openLine).lines } : State).requestAt 0x07 0 (ctlHead 7)
      ∧ ({ ctlSlot 7 with lines := (withLine openLine).lines } : State).quiet = false := by decide +kernel

/-! ## Witnesses: auctions and evidence -/

theorem witness_Generator :
    (1#32 : BitVec 32) ≠ 0#32 ∧ (1#32 : BitVec 32).getLsbD 0 = true ∧ atWork.served
      ∧ atWork.prt.auctions = .idle ∧ (agendaHead (.window 0 0 none) running9).releases .internal
      ∧ (ctlSlot 10).requestAt 0x0A 0 (ctlHead 10) := by
  decide +kernel

/-- Each timer one period before its instant is not due, and is due in the period that reaches it. -/
theorem witness_AuctionTimers :
    (auction group9 ⟨55799, 999999996⟩ ⟨55800, 0⟩).callOpenDue 9 = true
      ∧ (auction group9 ⟨55800, 0⟩ ⟨55800, 4⟩).callOpenDue 9 = false
      ∧ (auction running9 ⟨56099, 999999996⟩ ⟨56100, 0⟩).windowDue 9 = true
      ∧ (auction { running9 with drawn := some ⟨1, 56174, 0⟩, closeTimer := true }
          ⟨56173, 999999999⟩ ⟨56174, 3⟩).closeDue 9 = true
      ∧ ({ atWork.setAlarm 0 (some { period := 0, next := ⟨0, 2⟩, late := true }) with
          tb := { atWork.tb with ns := 4 } } : State).alarmDue 0 = true
      ∧ (disciplined .locked 0 0 (goodSecond 0)).actionDue = true
      ∧ (atWork.actionDue = false ∧ atWork.missingDue = false ∧ atWork.holdoverDue = false) := by decide +kernel

theorem witness_RecordCreated :
    (atWork.createNow (.alarm 3 0)).sqm.agenda.any (fun w => w.body.sameClass (.alarm 3 0)) = true
      ∧ (atWork.createNow (.alarm 3 0)).sqm.agenda.all (fun w => !w.body.sameClass (.alarm 4 0)) = true := by
  decide +kernel

/-- Bodies that merge: DISCARD, a CLOCK of each subtype that waits, and ATTEST. -/
theorem witness_RecordCreated_merges :
    let a : Body := .attest (atWork.snapshot atWork ⟨0, 1, 0⟩)
    (Body.discard 1 2).sameClass (.discard 3 4) = true ∧ a.sameClass a = true
      ∧ (Body.clock 0 none (.offset 0 1)).sameClass (.clock 5 none (.offset 1 2)) = true
      ∧ (Body.clock 0 none (.step ⟨0, 0, 0⟩ ⟨0, 1, 0⟩)).sameClass (.clock 5 none (.step ⟨0, 1, 0⟩ ⟨0, 2, 0⟩)) = true
      ∧ (Body.clock 0 none (.offset 0 1)).sameClass (.clock 0 none (.params none none)) = false := by decide +kernel

/-- ARM_GROUP at 56,000 s: groups 63 and 64; a busy group; a close at now, and just after it. -/
def groupSlot (kind : Nat) (g : Group) : State :=
  let s := auction g ⟨56000, 0⟩ ⟨56000, 4⟩
  { s with ctl := (ctlSlot kind).ctl }

theorem witness_GroupRequests :
    (groupSlot 8 Group.powerOn).requestAt 0x08 0 (ctlHead 8)
      ∧ (groupSlot 8 running9).requestAt 0x08 0 (ctlHead 8)
      ∧ scheduleOk 15 300000 3600000 ⟨56000, 4⟩ ⟨56000, 5⟩ = true
      ∧ scheduleOk 15 300000 3600000 ⟨56000, 5⟩ ⟨56000, 5⟩ = false
      ∧ scheduleOk 16 300000 3600000 ⟨56000, 4⟩ ⟨56000, 5⟩ = false
      ∧ (groupSlot 9 Group.powerOn).requestAt 0x09 0 (ctlHead 9)
      ∧ (groupSlot 9 { group9 with callOpen := ⟨57000, 0⟩ }).requestAt 0x09 0 (ctlHead 9)
      ∧ (groupSlot 9 running9).requestAt 0x09 0 (ctlHead 9) := by decide +kernel

/-- A group that the initial set of its period, still to be done, abandons: the set makes it busy. -/
theorem witness_GroupRequests_busyAfterWork :
    let s := disciplined .acquiring 0 0 (goodSecond (-1000))
    let t : State := { s with ctl := (ctlSlot 9).ctl
                              atu := (atWork.setGroup 9 { group9 with callOpen := ⟨0, 500⟩ }).atu }
    t.requestAt 0x09 0 (ctlHead 9) ∧ (t.group 9).phase = .armed ∧ t.sqm.agenda = []
      ∧ t.left.sqm.agenda.any (fun e => e.body.isGroup && e.group == 9) = true := by decide +kernel

theorem witness_SeedAndAlarm :
    (ctlSlot 10).requestAt 0x0A 0 (ctlHead 10) ∧ (ctlSlot 11).requestAt 0x0B 0 (ctlHead 11)
      ∧ (ctlSlot 12).requestAt 0x0C 0 (ctlHead 12) ∧ (alarmOf 7).isSome ∧ (alarmOf 8).isNone := by
  decide +kernel

/-- An entry that is present at index 7, and one that is absent. -/
theorem witness_CancelAlarm :
    let s := (ctlSlot 12).setAlarm 7 (some { period := 0, next := ⟨9, 0⟩, late := false })
    s.requestAt 0x0C 0 (ctlHead 12) ∧ s.alarm 7 ≠ none ∧ s.alarm 6 = none
      ∧ (s.left.alarm 7).isSome = true := by decide +kernel

theorem witness_LinesAndAuctionsScopes :
    (withLine openLine).served ∧ ((withLine openLine).line 0).up = true
      ∧ (auction running9 ⟨56000, 0⟩ ⟨56000, 4⟩).served
      ∧ (auction running9 ⟨56000, 0⟩ ⟨56000, 4⟩).prt.auctions = .idle
      ∧ ({ atWork with prt := { atWork.prt with auctions := .waitAbandon } } : State).served
      ∧ (atWork.served ∧ allGroups.all (fun g => (atWork.group g).phase == .idle) = true) := by
  decide +kernel

theorem witness_Attestation :
    let s : State := { atWork with tb := { atWork.tb with sec := 1 }
                                   clock := { atWork.clock with prev := ⟨0, 999999996⟩ } }
    let r : State := { atWork with
      tb := { atWork.tb with ns := 4 }
      clock := { atWork.clock with prev := ⟨0, 4⟩ }
      sqm := { atWork.sqm with
        agenda := [waitingRecord 255 (.attest (atWork.snapshot atWork ⟨0, 0, 0⟩))], created := 1 } }
    s.ready ∧ s.boundaryDue = true ∧ s.sqm.agenda = [] ∧ r.releases .internal := by decide +kernel

/-- An enabled input with and without a pulse; a filter just passed; a carry to judge. -/
theorem witness_CheckInputs :
    let pulse : Pulse := { stamp := ⟨0, 0, 0⟩, riseOwn := 0, filter := .ns100 }
    let s := atWork.setCheck .chk0 { enabledCheck with pulse := some pulse }
    let t : State := { s with clock := { s.clock with own := 100 * 4294967296 } }
    let c : State := { atWork with clock := { atWork.clock with carried := true } }
    (s.ready ∧ s.edgeDue (s.check .chk0) = false ∧ (s.check .chk0).enabled = true)
      ∧ (s.check .chk1).enabled = false
      ∧ (t.ready ∧ t.clock.carried = false ∧ pulse.filter.span ≤ (t.clock.own - pulse.riseOwn) / 4294967296)
      ∧ (c.ready ∧ c.clock.carried = true) ∧ atWork.ready ∧ atWork.clock.carried = false := by decide +kernel

theorem witness_EvidenceAndStatus :
    (ctlSlot 13).requestAt 0x0D 0 (ctlHead 13)
      ∧ ({ ctlSlot 13 with clock := { atWork.clock with carried := true } } : State).requestAt 0x0D 0 (ctlHead 13)
      ∧ (ctlSlot 14).requestAt 0x0E 0 (ctlHead 14)
      ∧ (checkOf ⟨1, 3, 1000000⟩).isSome ∧ (checkOf ⟨1, 4, 1⟩).isNone ∧ (checkOf ⟨1, 3, 0⟩).isNone := by
  decide +kernel

theorem witness_LineAndCaptureSettings :
    (ctlSlot 4).requestAt 0x04 0 (ctlHead 4) ∧ (ctlSlot 5).requestAt 0x05 0 (ctlHead 5)
      ∧ (ctlSlot 6).requestAt 0x06 0 (ctlHead 6) ∧ (ctlSlot 15).requestAt 0x0F 0 (ctlHead 15)
      ∧ (lineOf 3).isSome ∧ (lineOf 4).isNone ∧ (captureOf 10000000 1000 999 0x3FFE 0).isSome
      ∧ (captureOf 1000 1 1 0 0).isNone ∧ (captureOf 1000 1 0 1 0).isNone := by decide +kernel

/-! ## Witnesses: chains and port -/

theorem witness_StartAndResume :
    let st (c : Chain) (x : ChainCtx) : Prop := (atWork.setCtx c x).served ∧ (atWork.setCtx c x).carries
    st .control { ChainCtx.powerOn with start := 64 } ∧ st .event { ChainCtx.powerOn with start := 96 }
      ∧ st .capture { ChainCtx.powerOn with state := .parked, park := some .atEnd }
      ∧ st .event { ChainCtx.powerOn with state := .active, walk := .next }
      ∧ st .event { ChainCtx.powerOn with state := .stopping }
      ∧ st .control { ChainCtx.powerOn with state := .fault, fault := some .align, start := 64 }
      ∧ ({ atWork with prt := { atWork.prt with chains := .waitDiscard } } : State).served
      ∧ ({ atWork with prt := { atWork.prt with chains := .waitDiscard } } : State).carries := by
  decide +kernel

/-- STOP acts on this chain state, with nothing in flight. -/
def mayStop (s : State) : Bool :=
  decide (s.served ∧ s.carries) && s.prt.chains == .idle && s.posted.isEmpty

theorem witness_StopChain :
    mayStop (waiting .control (.slotHead 0) false) = true ∧ mayStop (waiting .control .header false) = true
      ∧ mayStop (atWork.setCtx .control { ChainCtx.powerOn with state := .fault, fault := some .align }) = true
      ∧ mayStop (engineHead .stamp 9 running9) = true ∧ 0 < (engineHead .stamp 9 running9).outstanding
      ∧ mayStop (evtSlot 0x81) = true ∧ (evtSlot 0x81).evt.blocks.length = 1
      ∧ mayStop (waiting .event .header false) = true ∧ mayStop (packing 0) = true ∧ mayStop toFlush = true
      ∧ mayStop (waiting .capture .next false) = true ∧ mayStop (ctlSlot 1) = true := by decide +kernel

theorem witness_StopChain_closing :
    closing.served ∧ closing.carries ∧ closing.pst.block = none ∧ closing.cap.closing ≠ none := by
  decide +kernel

theorem witness_BlockEntered :
    (waiting .control .header false).waitsFor .control .header
      ∧ (waiting .event .header true).waitsFor .event .header
      ∧ (waiting .capture .header false).waitsFor .capture .header
      ∧ (evtSlot 0x81).evt.blocks.all (fun b => !b.left) = true
      ∧ requestBlockOk (header 1 512 512) = true ∧ requestBlockOk (header 1 0 65536) = true
      ∧ requestBlockOk (header 1 520 512) = false ∧ capacityOk (header 1 0 511) = false := by decide +kernel

theorem witness_Walk :
    (waiting .control .next false).waitsFor .control .next
      ∧ (waiting .capture .next true).waitsFor .capture .next
      ∧ (waiting .control (.slotHead 0) false).waitsFor .control (.slotHead 0)
      ∧ (waiting .event (.slotHead 0) false).waitsFor .event (.slotHead 0)
      ∧ (let e := (evtSlot 0x81).setCtx .event { (evtSlot 0x81).evt.ctx with walk := .slotHead 64 }
         e.waitsFor .event (.slotHead 64) ∧ e.evt.blocks.map (·.left) = [false] ∧ e.eventUsed = 128
           ∧ slotRefusal .event { evtHead 0x84 with length := 64 } = some .kind
           ∧ malformedSlot 64 128 72 = true ∧ malformedSlot 64 128 64 = false)
      ∧ malformedSlot 0 16 16 = false ∧ malformedSlot 8 16 16 = true ∧ malformedSlot 0 16 8 = true
      ∧ slotRefusal .control { ctlHead 4 with length := 32 } = none
      ∧ slotRefusal .control { ctlHead 4 with length := 24 } = some .range
      ∧ slotRefusal .control (ctlHead 0x10) = some .kind := by decide +kernel

theorem witness_EventTakes :
    (evtSlot 0x81).eventAt 0x81 0 (evtHead 0x81) ∧ (evtSlot 0x82).eventAt 0x82 0 (evtHead 0x82)
      ∧ (evtSlot 0x83).eventAt 0x83 0 (evtHead 0x83) ∧ stampOk 63 8 (evtHead 0x81) = true
      ∧ stampOk 255 8 (evtHead 0x81) = true ∧ stampOk 64 8 (evtHead 0x81) = false
      ∧ stampOk 63 9 (evtHead 0x81) = false := by decide +kernel

/-- The last slot of a block, an earlier block having an entry outstanding. -/
def evtLastSlot (kind : Nat) : State :=
  let s := evtSlot kind
  { s with evt := { s.evt with blocks :=
      { addr := 4096#64, notify := true, used := 64, outstanding := 1, left := true, count := 0, low := none,
        high := none, bad := false, unfinished := false } :: s.evt.blocks.map fun b => { b with used := 64 } } }

theorem witness_EventTakes_lastSlot :
    (evtLastSlot 0x81).eventAt 0x81 0 (evtHead 0x81) ∧ (evtLastSlot 0x83).eventAt 0x83 0 (evtHead 0x83)
      ∧ (evtLastSlot 0x81).evt.blocks.map (fun b => (b.used, b.outstanding, b.unfinished))
        = [(64, 1, false), (64, 0, false)] := by decide +kernel

/-- R145, R157: after the take of its last slot the block stays in flight until its write-back; one whose last
slot is answered RANGE at its take is finished DONE (state 3). -/
theorem test_event_last_slot :
    let t := after (.stamp 5 8 (pad 8)) (evtLastSlot 0x81)
    let u := after (.abandon 64) (evtLastSlot 0x83)
    (t.evt.ctx.walk = .next ∧ t.evt.blocks.map (fun b => (b.addr, b.outstanding, b.left))
        = [(4096#64, 1, true), (8192#64, 1, true)])
      ∧ u.evt.ctx.walk = .next ∧ u.evt.blocks.map (·.addr) = [4096#64]
      ∧ u.posted.map (fun w => (w.addr, w.bytes.take 1)) = [(8260, [4]), (8202, [0]), (8212, [1]), (8200, [3])] := by
  decide +kernel

/-- A write-back that leaves the block in the list, one that finishes it, one that finishes a STOP. -/
theorem witness_WritesComplete :
    let stopping : State := { written with evt := { written.evt with
      ctx := { ChainCtx.powerOn with state := .stopping }
      blocks := written.evt.blocks.map fun b => { b with left := false } } }
    (written.ready ∧ written.carries ∧ written.prt.chains ≠ .waitDone ∧ written.ep.configured = true)
      ∧ (stopping.ready ∧ stopping.evt.ctx.state = .stopping)
      ∧ ((finishing none).ready ∧ (finishing none).carries) ∧ (finishing (some 8192)).ready
      ∧ (let p : State := { written with posted := takenWrite .event 8192 :: written.posted }
         p.calm ∧ p.carries ∧ (takenWrite .event 8192).ends = .plain) := by
  decide +kernel

theorem witness_AccessFailed :
    ((waiting .event .header false).ready ∧ (waiting .event .header false).carries)
      ∧ (waiting .control (.slotHead 0) false).ready ∧ (ctlSlot 1).ready
      ∧ ((evtSlot 0x81).ready ∧ (evtSlot 0x81).carries)
      ∧ (written.calm ∧ written.carries) ∧ closing.calm ∧ (finishing none).calm
      ∧ (let p : State := { written with posted := takenWrite .event 8192 :: written.posted }
         p.calm ∧ p.carries)
      ∧ ({ closing with prt := { atWork.prt with chains := .waitDone } } : State).calm := by decide +kernel

/-- A record that fits, one of a push kind, one that does not fit. -/
theorem witness_CapturePacking :
    let full : State := { packing 0 with pst := { (packing 0).pst with
      block := some { addr := 4096#64, capacity := 512, notify := true, used := 512, count := 4, first := 1,
                      last := 4 } } }
    ((packing 0).ready ∧ (packing 0).carries ∧ (aRecord 5001).length ≤ 512)
      ∧ ((packing 0).pst.params.push.getLsbD 13 = false ∧ (packing 0).pst.params.push.getLsbD 8 = true)
      ∧ (full.ready ∧ 512 < 512 + (aRecord 5001).length)
      ∧ (toFlush.ready ∧ toFlush.carries) ∧ (closing.ready ∧ closing.carries) := by decide +kernel

theorem witness_ChainRegisters_Reads :
    atWork.served ∧ atWork.powered = true ∧ atWork.ep.linkUp = true ∧ atWork.ep.configured = true
      ∧ (atWork.ready ∧ atWork.periodDone)
      ∧ (let s := disciplined .suspect 0 0 (goodSecond 0)
         s.acts (goodSecond 0) [] ∧ (after .actionInstant s).periodDone)
      ∧ (let a : State := { atWork.setAlarm 0 (some { period := 0, next := ⟨0, 2⟩, late := false }) with
           tb := { atWork.tb with ns := 4 } }
         a.osc = true ∧ a.owed = false ∧ a.alarmDue 0 = true)
      ∧ atWork.pst.records.length ≤ 1024 ∧ atWork.tb.epoch ≤ 65535
      ∧ ({ atWork with rail33 := false } : State).powered = false := by decide +kernel

theorem witness_Notices :
    atWork.served ∧ atWork.ep.msi = true ∧ atWork.ep.busMaster = true := by decide +kernel

theorem witness_ChainsScope :
    (packing 0).served ∧ (packing 0).prt.chains = .idle ∧ (packing 0).cap.closing = none
      ∧ (packing 0).timersDue = false ∧ (packing 0).owed = false
      ∧ closing.served ∧ closing.prt.chains = .idle ∧ closing.cap.closing ≠ none
      ∧ ({ packing 0 with prt := { atWork.prt with chains := .waitDone } } : State).powered = true
      ∧ (packing 0).osc = true
      ∧ ({ atWork with prt := { atWork.prt with chains := .waitDiscard } } : State).served := by
  decide +kernel

end Sys2Proof.Tests
end

section
/-!
The choice of the merge (R74 to R78): when a head is releasable, that at most one is, and what a release leaves
in PST.
-/

namespace Sys2Proof.Machine

open Sys2Proof

/-! ## The order of stamps -/

theorem Stamp.blt_iff (t u : Stamp) : t.blt u = true ↔
    t.epoch < u.epoch ∨ t.epoch = u.epoch ∧ (t.sec < u.sec ∨ t.sec = u.sec ∧ t.ns < u.ns) := by
  simp [Stamp.blt]

theorem Stamp.blt_irrefl (t : Stamp) : ¬ t.blt t = true := by
  rw [Stamp.blt_iff]; omega

theorem Stamp.blt_asymm {t u : Stamp} (h : t.blt u = true) : ¬ u.blt t = true := by
  rw [Stamp.blt_iff] at *; omega

/-- A stamp before `u` is before every stamp that does not precede `u`. -/
theorem Stamp.blt_of_blt_of_not_blt {t u v : Stamp} (h : t.blt u = true) (h' : ¬ v.blt u = true) :
    t.blt v = true := by
  rw [Stamp.blt_iff] at *; omega

/-! ## Sources, ranks and bounds -/

@[simp] theorem Source.mem_allSources (a : Source) : a ∈ allSources := by
  rcases a with l | _ | _
  · fin_cases l <;> simp [allSources, rankedSources]
  · simp [allSources, rankedSources]
  · simp [allSources]

@[simp] theorem rank_internal (tie : Nat) : rank tie .internal = 0 := rfl

/-- I ranks before every other source (R76). -/
theorem rank_pos (tie : Nat) {a : Source} (h : a ≠ .internal) : 0 < rank tie a := by
  cases a with
  | line l => exact Nat.add_pos_left Nat.one_pos _
  | engine => exact Nat.add_pos_left Nat.one_pos _
  | internal => exact absurd rfl h

/-- The bound of a line or of E that has a head is the head's stamp (R54, R74). -/
theorem State.bound_of_headStamp {s : State} {a : Source} {t : Stamp} (ha : a ≠ .internal)
    (h : s.headStamp a = some t) : s.bound a = .upTo t := by
  cases a with
  | line l =>
    cases hf : (s.line l).fifo with
    | nil => simp [State.headStamp, hf] at h
    | cons e rest => simpa [State.headStamp, State.bound, Line.bound, hf] using h
  | engine =>
    cases hf : s.evt.fifo with
    | nil => simp [State.headStamp, hf] at h
    | cons e rest => simpa [State.headStamp, State.bound, hf] using h
  | internal => exact absurd rfl ha

/-- I's bound is never later than the agenda's head (R74). -/
theorem State.blt_of_internal_bound {s : State} {t u : Stamp} (h : s.headStamp .internal = some u)
    (hb : (s.bound .internal).laterThan t = true) : t.blt u = true := by
  cases hg : s.sqm.agenda with
  | nil => simp [State.headStamp, hg] at h
  | cons e rest =>
    have hu : e.stamp = u := by simpa [State.headStamp, hg] using h
    subst hu
    simp only [State.bound, hg, Bound.laterThan] at hb
    split at hb
    · exact hb
    · next hn => exact Stamp.blt_of_blt_of_not_blt hb hn

/-- A source whose bound is later than `t` has no head stamped at or before `t`. -/
theorem State.blt_of_bound_later {s : State} {b : Source} {t u : Stamp} (h : s.headStamp b = some u)
    (hb : (s.bound b).laterThan t = true) : t.blt u = true := by
  by_cases hi : b = .internal
  · subst hi; exact State.blt_of_internal_bound h hb
  · simpa [State.bound_of_headStamp hi h, Bound.laterThan] using hb

/-! ## The releasable head (R77) -/

/-- Source `b` holds back no head stamped `t` of source `a`: its bound is later, or equal with `b` ranked after
`a` (R77, test 3). -/
abbrev State.passedBy (s : State) (a : Source) (t : Stamp) (b : Source) : Prop :=
  (s.bound b).laterThan t = true ∨ (s.bound b = .upTo t ∧ rank s.sqm.tie a < rank s.sqm.tie b)

theorem State.yields_iff (s : State) (a : Source) (t : Stamp) (b : Source) :
    s.yields a t b = true ↔ (b ≠ a → s.passedBy a t b) := by
  simp [State.yields, State.passedBy, or_assoc, imp_iff_not_or]

/-- The three tests of R77, while the numbers last (R80). -/
theorem State.releasable_iff {s : State} {a : Source} {t : Stamp} (h : s.headStamp a = some t) :
    s.releasable a = true ↔ s.sqm.exhausted = false ∧ s.pst.records.length < 1024
      ∧ (∀ l : Fin 4, a = .line l → (s.line l).acks.length < 64) ∧ ∀ b, b ≠ a → s.passedBy a t b := by
  cases a <;>
    simp [State.releasable, h, State.yields_iff, Config.storeDepth, Config.ackDepth, and_assoc]

/-- A releasable source has a head. -/
theorem State.headStamp_of_releasable {s : State} {a : Source} (h : s.releasable a = true) :
    ∃ t, s.headStamp a = some t := by
  cases ht : s.headStamp a with
  | none => simp [State.releasable, ht] at h
  | some t => exact ⟨t, rfl⟩

/-- A head of I needs the other bounds at or after its stamp only (R77). -/
theorem State.passedBy_of_internal (s : State) (t : Stamp) {b : Source} (hb : b ≠ .internal) :
    s.passedBy .internal t b ↔ (s.bound b).laterThan t = true ∨ s.bound b = .upTo t := by
  simp [State.passedBy, rank_pos _ hb]

/-- I lets pass only what is stamped before its bound (R77). -/
theorem State.passedBy_internal (s : State) (a : Source) (t : Stamp) :
    s.passedBy a t .internal ↔ (s.bound .internal).laterThan t = true := by
  simp [State.passedBy]

/-- A head that another source's head lets pass is stamped before it, or with it and ranked first. -/
theorem State.precedes_of_passedBy {s : State} {a b : Source} {t u : Stamp} (hu : s.headStamp b = some u)
    (h : s.passedBy a t b) : t.blt u = true ∨ (t = u ∧ rank s.sqm.tie a < rank s.sqm.tie b) := by
  rcases h with hl | ⟨he, hr⟩
  · exact .inl (State.blt_of_bound_later hu hl)
  · have hb : b ≠ .internal := by rintro rfl; exact absurd hr (Nat.not_lt_zero _)
    have htu : u = t := by simpa [State.bound_of_headStamp hb hu] using he
    exact .inr ⟨htu.symm, hr⟩

/-- At most one head is releasable (R77): of two, each would be stamped before the other, or with it and
ranked before it. -/
theorem State.releasable_unique {s : State} {a b : Source} (ha : s.releasable a = true)
    (hb : s.releasable b = true) : a = b := by
  obtain ⟨t, ht⟩ := State.headStamp_of_releasable ha
  obtain ⟨u, hu⟩ := State.headStamp_of_releasable hb
  obtain ⟨-, -, -, hpa⟩ := (State.releasable_iff ht).1 ha
  obtain ⟨-, -, -, hpb⟩ := (State.releasable_iff hu).1 hb
  by_contra hne
  rcases State.precedes_of_passedBy hu (hpa b (Ne.symm hne)) with htu | ⟨rfl, hr⟩
  · rcases State.precedes_of_passedBy ht (hpb a hne) with hut | ⟨rfl, -⟩
    · exact Stamp.blt_asymm htu hut
    · exact Stamp.blt_irrefl _ htu
  · rcases State.precedes_of_passedBy ht (hpb a hne) with hut | ⟨-, hr'⟩
    · exact Stamp.blt_irrefl _ hut
    · exact Nat.lt_asymm hr hr'

/-- The merge takes the releasable head. -/
theorem State.nextRelease_eq {s : State} {a : Source} (h : s.releasable a = true) :
    s.nextRelease = some a := by
  obtain ⟨b, hb⟩ := Option.isSome_iff_exists.1 (State.nextRelease_isSome h)
  rw [hb, State.releasable_unique h (List.find?_some hb)]

theorem State.nextRelease_eq_none {s : State} (h : ∀ a, s.releasable a = false) : s.nextRelease = none :=
  List.find?_eq_none.2 fun a _ => by simp [h a]

/-! ## Failed accesses keep the records of PST -/

@[simp] theorem State.writeFault_records (s : State) (c : Chain) :
    (s.writeFault c).pst.records = s.pst.records := by
  cases c with
  | control => simp [State.writeFault]
  | event => simp [State.writeFault]
  | capture => simp only [State.writeFault]; split <;> simp

theorem State.failWrites_fold_records (p : State → Chain → Bool) (l : List Chain) (s : State) :
    (l.foldl (fun s c => if p s c then s.writeFault c else s) s).pst.records = s.pst.records := by
  induction l generalizing s with
  | nil => rfl
  | cons c l ih => rw [List.foldl_cons, ih]; split <;> simp

@[simp] theorem State.failWrites_records (s : State) : s.failWrites.pst.records = s.pst.records := by
  unfold State.failWrites
  split
  · exact State.failWrites_fold_records (fun s c => s.posted.any fun w => w.chain == c) _ s
  · rfl

@[simp] theorem State.busCheck_records (old s : State) : (old.busCheck s).pst.records = s.pst.records := by
  simp [State.busCheck]

/-! ## What a release leaves in PST (R81) -/

@[simp] theorem State.append_pst (s : State) (tie : Nat) (r : Record) :
    (s.append tie r).pst = { s.pst with records := s.pst.records ++ [r] } := by
  simp [State.append]

/-- From `s` to `t` one record entered PST, stamped `u`, of source `a`. -/
def State.enters (s t : State) (a : Source) (u : Stamp) : Prop :=
  ∃ r : Record, t.pst.records = s.pst.records ++ [r] ∧ r.source = a.code ∧ r.stamp = u

theorem State.releaseLine_enters (s : State) (l : Fin 4) (e : FifoEntry) (rest : List FifoEntry) :
    s.enters (s.releaseLine l e rest) (.line l) e.stamp :=
  ⟨e.record l s.sqm.next (s.useNumber.phaseTag e.group).2, by simp [State.releaseLine], rfl, rfl⟩

theorem State.releaseEngine_enters (s : State) (e : EngineEntry) (rest : List EngineEntry) :
    s.enters (s.releaseEngine e rest) .engine e.stamp :=
  let p := s.useNumber.engineBody e
  ⟨e.record s.sqm.next (p.1.phaseTag e.group).2 p.2, by simp [State.releaseEngine, p], rfl, rfl⟩

theorem State.releaseInternal_enters (s : State) (e : Internal) (rest : List Internal) :
    s.enters (s.releaseInternal e rest) .internal e.stamp :=
  let p := State.internalBody { s.useNumber with sqm := { s.useNumber.sqm with agenda := rest } } e s.sqm.next
  ⟨e.record s.sqm.next (p.1.phaseTag e.group).2 p.2, by simp [State.releaseInternal, p], rfl, rfl⟩

/-- The release of a source's head puts one record with the head's stamp into PST. -/
theorem State.releaseHead_enters {s : State} {a : Source} {t : Stamp} (h : s.headStamp a = some t) :
    s.enters (s.releaseHead a) a t := by
  cases a with
  | line l =>
    cases hf : (s.line l).fifo with
    | nil => simp [State.headStamp, hf] at h
    | cons e rest =>
      obtain rfl : e.stamp = t := by simpa [State.headStamp, hf] using h
      simpa [State.releaseHead, hf] using s.releaseLine_enters l e rest
  | engine =>
    cases hf : s.evt.fifo with
    | nil => simp [State.headStamp, hf] at h
    | cons e rest =>
      obtain rfl : e.stamp = t := by simpa [State.headStamp, hf] using h
      simpa [State.releaseHead, hf] using s.releaseEngine_enters e rest
  | internal =>
    cases hg : s.sqm.agenda with
    | nil => simp [State.headStamp, hg] at h
    | cons e rest =>
      obtain rfl : e.stamp = t := by simpa [State.headStamp, hg] using h
      simpa [State.releaseHead, hg] using s.releaseInternal_enters e rest

/-- What a release reads of TB and DU changes nothing of that. -/
theorem State.releaseFrom_enters {s : State} {a : Source} {t : Stamp} (h : s.headStamp a = some t) :
    s.enters (s.releaseFrom a) a t := by
  have hu (v : State) : s.enters (s.releaseUnder v a) a t :=
    @State.releaseHead_enters { s with tb := v.tb, du := v.du } a t h
  unfold State.releaseFrom
  simp only
  split
  · simpa [State.enters] using hu _
  · exact hu _

/-! ## RELEASE with nothing of the period left to be done -/

theorem State.release_eq {s : State} {a : Source} (hw : s.workDue = false) (h : s.releasable a = true) :
    s.release = s.releaseFrom a := by
  simp [State.release, State.atInstant_eq hw, State.nextRelease_eq h]

/-- With no releasable head the merge waits (R77). -/
theorem State.release_eq_self {s : State} (hw : s.workDue = false) (h : ∀ a, s.releasable a = false) :
    s.release = s := by
  simp [State.release, State.atInstant_eq hw, State.nextRelease_eq_none h]

/-- Neither a boundary nor work comes before the release. -/
theorem exec_release_of_ready {s : State} (hr : s.ready) (hw : s.workDue = false)
    (hb : s.boundaryDue = false) : exec .release s = .next (s.busCheck s.release) := by
  have hn : s.releaseNext = s.release := by
    simp [State.releaseNext, State.settleBoundary, State.boundaryFirst, State.settleWork, State.workFirst,
      hb, hw]
  rw [← hn]
  exact tickedIO_of_ready hr _

theorem State.writesFail_of_ready {s : State} (h : s.ready) : s.writesFail = false := by
  obtain ⟨-, -, hq⟩ := h
  have hs := State.still_of_quiescent hq
  simp_all [State.still, State.settled]

/-- The releasable head is released as one record. -/
theorem exec_release_enters {s : State} {a : Source} (hr : s.ready) (hw : s.workDue = false)
    (hb : s.boundaryDue = false) (h : s.releasable a = true) :
    ∃ t : State, ∃ u : Stamp, exec .release s = .next t ∧ s.headStamp a = some u ∧ s.enters t a u := by
  obtain ⟨u, hu⟩ := State.headStamp_of_releasable h
  refine ⟨_, u, exec_release_of_ready hr hw hb, hu, ?_⟩
  simpa [State.release_eq hw h, State.enters] using State.releaseFrom_enters hu

/-- With no releasable head RELEASE changes nothing. -/
theorem exec_release_waits {s : State} (hr : s.ready) (hw : s.workDue = false) (hb : s.boundaryDue = false)
    (h : ∀ a, s.releasable a = false) : exec .release s = .next s := by
  rw [exec_release_of_ready hr hw hb, State.release_eq_self hw h,
    State.busCheck_of_same rfl rfl (fun _ => rfl) (State.writesFail_of_ready hr)]

/-- Settles O30, from the tests of R77 (`releasable_iff`), the order of heads that pass test 3
(`precedes_of_passedBy`) and the records of PST at a release (`releaseHead_enters`). -/
theorem atMostOneReleasable : Obligations.AtMostOneReleasable := by
  intro s _
  refine ⟨fun a t ht hx => ⟨?_, ?_, fun _ => s.passedBy_internal a t⟩,
    fun a b => State.releasable_unique, fun hr hw hb => ⟨fun a h => ?_, exec_release_waits hr hw hb⟩⟩
  · simpa [hx] using State.releasable_iff ht
  · rintro rfl b hne
    exact s.passedBy_of_internal t hne
  · obtain ⟨t, u, he, hu, r, hrec, hsrc, rfl⟩ := exec_release_enters hr hw hb h
    exact ⟨t, r, he, hrec, hsrc, hu⟩

end Sys2Proof.Machine
end

section
/-!
The random generator (R104): what a step of it and a draw yield, and what each operation of the machine leaves of
it. Only the release of a WINDOW draws (`Internal.draws`).
-/

namespace Sys2Proof.Machine

open Sys2Proof

/-! ## A step and a draw (R104, R106) -/

theorem times_eq_iterate {α : Type} (f : α → α) : ∀ (n : Nat) (a : α), times f n a = f^[n] a
  | 0, _ => rfl
  | n + 1, a => times_eq_iterate f n (f a)

theorem genDraw_eq_iterate (g : BitVec 32) : genDraw g = genStep^[32] g := times_eq_iterate genStep 32 g

/-- A step that shifts a 1 out sets the highest bit, which the shift alone clears. -/
theorem genStep_highest {g : BitVec 32} (h : g.getLsbD 0 = true) : (genStep g).getLsbD 31 = true := by
  rw [genStep, if_pos h]; simp

/-- Whether or not a draw is made, the generator stays away from 0. -/
theorem ite_genDraw_ne_zero {c : Prop} [Decidable c] {g : BitVec 32} (h : g ≠ 0#32) :
    (if c then genDraw g else g) ≠ 0#32 := by
  split
  · exact genDraw_ne_zero h
  · exact h

theorem seedOf_ne_zero (seed : BitVec 32) : seedOf seed ≠ 0#32 := by
  unfold seedOf
  split
  · decide
  · assumption

/-! ## Operations of ATU that draw nothing -/

@[simp] theorem ite_generator (c : Prop) [Decidable c] (s t : State) :
    (if c then s else t).atu.generator = if c then s.atu.generator else t.atu.generator :=
  apply_ite (fun u : State => u.atu.generator) c s t

/-- A fold draws nothing if none of its steps does. -/
theorem foldl_generator {α : Type} {f : State → α → State}
    (hf : ∀ s a, (f s a).atu.generator = s.atu.generator) (l : List α) (s : State) :
    (l.foldl f s).atu.generator = s.atu.generator := by
  induction l generalizing s with
  | nil => rfl
  | cons a l ih => rw [List.foldl_cons, ih, hf]

@[simp] theorem State.runCallOpen_generator (s : State) (g : Fin 64) (epoch : Nat) (cls : TraceClass)
    (late stepped : Bool) : (s.runCallOpen g epoch cls late stepped).atu.generator = s.atu.generator := by
  simp [State.runCallOpen]

@[simp] theorem State.runWindow_generator (s : State) (g : Fin 64) (cls : TraceClass) (stepped : Bool) :
    (s.runWindow g cls stepped).atu.generator = s.atu.generator := by
  simp [State.runWindow]

@[simp] theorem State.runClose_generator (s : State) (g : Fin 64) (cls : TraceClass) (stepped : Bool) :
    (s.runClose g cls stepped).atu.generator = s.atu.generator := by
  unfold State.runClose; split <;> simp

@[simp] theorem State.runAlarm_generator (s : State) (a : Fin 8) (epoch : Nat) (cls : TraceClass) :
    (s.runAlarm a epoch cls).atu.generator = s.atu.generator := by
  unfold State.runAlarm; split <;> simp

@[simp] theorem State.settleGroup_generator (cls : TraceClass) (s : State) (g : Fin 64) :
    (s.settleGroup cls g).atu.generator = s.atu.generator := by
  simp [State.settleGroup]

@[simp] theorem State.settleAlarm_generator (cls : TraceClass) (s : State) (a : Fin 8) :
    (s.settleAlarm cls a).atu.generator = s.atu.generator := by
  simp [State.settleAlarm]

@[simp] theorem State.settleTimers_generator (s : State) (cls : TraceClass) :
    (s.settleTimers cls).atu.generator = s.atu.generator := by
  unfold State.settleTimers
  split
  · rw [foldl_generator (State.settleAlarm_generator cls), foldl_generator (State.settleGroup_generator cls)]
  · rfl

@[simp] theorem State.passGroup_generator (pre post : Instant) (s : State) (g : Fin 64) :
    (s.passGroup pre post g).atu.generator = s.atu.generator := by
  simp [State.passGroup]

@[simp] theorem State.passAlarm_generator (pre post : Instant) (s : State) (a : Fin 8) :
    (s.passAlarm pre post a).atu.generator = s.atu.generator := by
  unfold State.passAlarm
  split
  · rfl
  · split <;> simp

@[simp] theorem State.passTimers_generator (s : State) (pre post : Instant) :
    (s.passTimers pre post).atu.generator = s.atu.generator := by
  rw [State.passTimers, foldl_generator (State.passAlarm_generator pre post),
    foldl_generator (State.passGroup_generator pre post)]

@[simp] theorem State.abandonGroup_generator (pre : Stamp) (cls : TraceClass) (s : State) (g : Fin 64) :
    (s.abandonGroup pre cls g).atu.generator = s.atu.generator := by
  simp [State.abandonGroup]

@[simp] theorem State.abandonRunning_generator (s : State) (pre : Stamp) (cls : TraceClass) :
    (s.abandonRunning pre cls).atu.generator = s.atu.generator := by
  rw [State.abandonRunning, foldl_generator (State.abandonGroup_generator pre cls)]

@[simp] theorem State.armWindow_generator (s : State) (g : Fin 64) :
    (s.armWindow g).atu.generator = s.atu.generator := by
  simp [State.armWindow]

@[simp] theorem State.extendGroup_generator (s : State) (g : Fin 64) (t : Stamp) :
    (s.extendGroup g t).atu.generator = s.atu.generator := by
  simp [State.extendGroup]

@[simp] theorem State.releaseExtend_generator (s : State) (group : Nat) (t : Stamp) :
    (s.releaseExtend group t).1.atu.generator = s.atu.generator := by
  unfold State.releaseExtend
  split
  · rfl
  · simp

@[simp] theorem State.releaseAbandon_generator (s : State) (group : Nat) :
    (s.releaseAbandon group).1.atu.generator = s.atu.generator := by
  unfold State.releaseAbandon
  split
  · rfl
  · dsimp only; split <;> simp

@[simp] theorem State.phaseTag_generator (s : State) (group : Nat) :
    (s.phaseTag group).1.atu.generator = s.atu.generator := by
  unfold State.phaseTag; split <;> rfl

@[simp] theorem State.releaseGroup_generator (s : State) (g : Fin 64) (body : Body) :
    (s.releaseGroup g body).atu.generator = s.atu.generator := by
  cases body <;> simp [State.releaseGroup]

/-! ## The work of a period draws nothing -/

@[simp] theorem State.afterMove_generator (s : State) (pre post : Instant) (d : Int) :
    (s.afterMove pre post d).atu.generator = s.atu.generator := by
  simp [State.afterMove]

@[simp] theorem State.applyStep_generator (s : State) (cls : TraceClass) (sec : Second) :
    (s.applyStep cls sec).atu.generator = s.atu.generator := by
  simp [State.applyStep]

@[simp] theorem State.applySet_generator (s : State) (cls : TraceClass) (sec : Second) :
    (s.applySet cls sec).atu.generator = s.atu.generator := by
  simp [State.applySet]

@[simp] theorem State.moveTime_generator (s : State) (cls : TraceClass) (sec : Second) (mv : Move) :
    (s.moveTime cls sec mv).atu.generator = s.atu.generator := by
  cases mv <;> simp [State.moveTime]

@[simp] theorem State.workOf_generator (s : State) (sec : Second) :
    (s.workOf sec).atu.generator = s.atu.generator := by
  simp [State.workOf]

@[simp] theorem State.actOn_generator (s : State) (sec : Second) :
    (s.actOn sec).atu.generator = s.atu.generator := by
  simp [State.actOn]

@[simp] theorem State.takeAction_generator (s : State) :
    s.takeAction.atu.generator = s.atu.generator := by
  unfold State.takeAction; split <;> simp

@[simp] theorem State.missingSecond_generator (s : State) :
    s.missingSecond.atu.generator = s.atu.generator := by
  simp [State.missingSecond]

@[simp] theorem State.closeActions_generator (s : State) :
    s.closeActions.atu.generator = s.atu.generator := by
  refine times_keeps (p := fun t => t.atu.generator = s.atu.generator) (fun t ht => ?_) _ s rfl
  simpa using ht

@[simp] theorem State.acted_generator (s : State) : s.acted.atu.generator = s.atu.generator := by
  simp [State.acted]

@[simp] theorem State.holdoverSecond_generator (s : State) :
    s.holdoverSecond.atu.generator = s.atu.generator := by
  simp [State.holdoverSecond]

@[simp] theorem State.work_generator (s : State) : s.work.atu.generator = s.atu.generator := by
  simp [State.work]

@[simp] theorem State.done_generator (s : State) : s.done.atu.generator = s.atu.generator := by
  simp [State.done]

@[simp] theorem State.left_generator (s : State) : s.left.atu.generator = s.atu.generator := by
  simp [State.left]

@[simp] theorem State.runTimers_generator (s : State) : s.runTimers.atu.generator = s.atu.generator := by
  simp [State.runTimers]

@[simp] theorem State.tickTimers_generator (s : State) : s.tickTimers.atu.generator = s.atu.generator := by
  simp [State.tickTimers]

@[simp] theorem State.closePeriod_generator (s : State) : s.closePeriod.atu.generator = s.atu.generator := by
  simp [State.closePeriod]

@[simp] theorem State.advance_generator (s : State) : s.advance.atu.generator = s.atu.generator := rfl

@[simp] theorem State.nextPeriod_generator (s : State) : s.nextPeriod.atu.generator = s.atu.generator := by
  simp [State.nextPeriod]

/-! ## The draw of a WINDOW (R106) -/

/-- The release of the entry draws: it is a WINDOW of one of the 64 groups. -/
def Internal.draws (e : Internal) : Bool := e.body.isWindow && decide (e.group < 64)

theorem State.drawWindow_generator (s : State) (g : Fin 64) (epoch : Nat) :
    (s.drawWindow g epoch).1.atu.generator = genDraw s.atu.generator := by
  simp [State.drawWindow]

theorem State.internalBody_generator (s : State) (e : Internal) (seq : Nat) :
    (s.internalBody e seq).1.atu.generator
      = if e.draws then genDraw s.atu.generator else s.atu.generator := by
  obtain ⟨g, hg⟩ : ∃ g, groupOf e.group = g := ⟨_, rfl⟩
  by_cases h64 : e.group < 64
  · obtain rfl : some ⟨e.group, h64⟩ = g := by rw [← hg, groupOf, dif_pos h64]
    cases hb : e.body <;>
      simp [State.internalBody, Internal.draws, Body.isWindow, Body.isGroup, Body.kindRank, hb, hg, h64,
        State.drawWindow_generator]
  · obtain rfl : none = g := by rw [← hg, groupOf, dif_neg h64]
    cases hb : e.body <;> simp [State.internalBody, Internal.draws, hb, hg, h64]

theorem State.releaseInternal_generator (s : State) (e : Internal) (rest : List Internal) :
    (s.releaseInternal e rest).atu.generator
      = if e.draws then genDraw s.atu.generator else s.atu.generator := by
  simp [State.releaseInternal, State.internalBody_generator]

@[simp] theorem State.releaseLine_generator (s : State) (l : Fin 4) (e : FifoEntry) (rest : List FifoEntry) :
    (s.releaseLine l e rest).atu.generator = s.atu.generator := by
  simp [State.releaseLine]

@[simp] theorem State.engineBody_generator (s : State) (e : EngineEntry) :
    (s.engineBody e).1.atu.generator = s.atu.generator := by
  unfold State.engineBody; split <;> simp

@[simp] theorem State.releaseEngine_generator (s : State) (e : EngineEntry) (rest : List EngineEntry) :
    (s.releaseEngine e rest).atu.generator = s.atu.generator := by
  simp [State.releaseEngine]

/-- The release of the head of source `src` draws. -/
def State.drawsAt (s : State) (src : Source) : Bool :=
  src == .internal && s.sqm.agenda.head?.any Internal.draws

theorem State.releaseHead_generator (s : State) (src : Source) :
    (s.releaseHead src).atu.generator
      = if s.drawsAt src then genDraw s.atu.generator else s.atu.generator := by
  cases src with
  | line l => simp only [State.releaseHead]; split <;> simp [State.drawsAt]
  | engine => simp only [State.releaseHead]; split <;> simp [State.drawsAt]
  | internal =>
    cases ha : s.sqm.agenda <;> simp [State.releaseHead, State.drawsAt, ha, State.releaseInternal_generator]

/-- A release reads TB and DU of another state, and draws as it would without that. -/
theorem State.releaseFrom_generator (s : State) (src : Source) :
    (s.releaseFrom src).atu.generator
      = if s.drawsAt src then genDraw s.atu.generator else s.atu.generator := by
  have hu (v : State) : (s.releaseUnder v src).atu.generator
      = if s.drawsAt src then genDraw s.atu.generator else s.atu.generator :=
    State.releaseHead_generator { s with tb := v.tb, du := v.du } src
  simp [State.releaseFrom, hu]

/-! ## What CHE and the owners do leaves the generator as it is -/

@[simp] theorem State.startChain_atu (s : State) (c : Chain) : (s.startChain c).atu = s.atu := by
  unfold State.startChain; dsimp only; (repeat' split) <;> simp

@[simp] theorem State.resumeChain_atu (s : State) (c : Chain) : (s.resumeChain c).atu = s.atu := by
  unfold State.resumeChain; dsimp only; split <;> simp

@[simp] theorem State.forgetLeave_atu (s : State) (c : Chain) : (s.forgetLeave c).atu = s.atu := rfl

@[simp] theorem State.stopControl_atu (s : State) : s.stopControl.atu = s.atu := by
  unfold State.stopControl State.stopWalking; (repeat' split) <;> simp

@[simp] theorem State.stopEvent_atu (s : State) : s.stopEvent.atu = s.atu := by
  unfold State.stopEvent State.stopWalk; dsimp only; (repeat' split) <;> simp

@[simp] theorem State.stopCapture_atu (s : State) : s.stopCapture.atu = s.atu := by
  unfold State.stopCapture State.stoppingCapture; (repeat' split) <;> simp

@[simp] theorem State.stopChain_atu (s : State) (c : Chain) : (s.stopChain c).atu = s.atu := by
  cases c <;> simp [State.stopChain]

/-- A chain command that is ignored changes nothing of ATU. -/
theorem State.command_atu (s : State) (c : Chain) {k : State → State} (hk : (k s).atu = s.atu) :
    (s.command c k).atu = s.atu := by
  unfold State.command; split
  · simp
  · exact hk

@[simp] theorem State.enterHeader_atu (s : State) (c : Chain) (h : BlockHeader) :
    (s.enterHeader c h).atu = s.atu := by
  cases c <;> simp only [State.enterHeader] <;> (repeat' split) <;>
    simp [State.takeControlBlock, State.takeEventBlock, State.openCapture, State.badCapture, State.badRequest]

@[simp] theorem State.controlHead_atu (s : State) (off : Nat) (h : SlotHead) :
    (s.controlHead off h).atu = s.atu := by
  unfold State.controlHead State.malformedControl; (repeat' split) <;> simp

@[simp] theorem State.eventHead_atu (s : State) (off : Nat) (h : SlotHead) :
    (s.eventHead off h).atu = s.atu := by
  unfold State.eventHead State.malformedEvent; (repeat' split) <;> simp

@[simp] theorem State.completeWriteBack_atu (s : State) (wb : WriteBack) (rest : List WriteBack) :
    (s.completeWriteBack wb rest).atu = s.atu := by
  unfold State.completeWriteBack; dsimp only; split <;> simp

@[simp] theorem State.leaveFinished_atu (s : State) (c : Chain) : (s.leaveFinished c).atu = s.atu := by
  unfold State.leaveFinished
  generalize (s.ctx c).walk = w
  cases (s.ctx c).state with
  | active => cases w with
    | finishing a => cases a <;> simp
    | _ => rfl
  | _ => rfl

@[simp] theorem State.takeEvent_atu (s : State) (off : Nat) (h : SlotHead) (e : EngineEntry) :
    (s.takeEvent off h e).atu = s.atu := by
  simp [State.takeEvent]

@[simp] theorem State.answer_atu (block : BitVec 64) (off : Nat) (h : SlotHead) (body : Nat) (a : Answer) :
    (State.answer block off h body a).atu = a.state.atu := by
  simp [State.answer]

@[simp] theorem State.slotAnswered_atu (s : State) (off : Nat) (h : SlotHead) (body : Nat) (r : List Byte)
    (st : SlotStatus) : (s.slotAnswered off h body r st).atu = s.atu := by
  unfold State.slotAnswered; dsimp only; (repeat' split) <;> rfl

@[simp] theorem State.startFrame_generator (s : State) (l : Fin 4) :
    (s.startFrame l).atu.generator = s.atu.generator := by
  simp [State.startFrame]

@[simp] theorem State.endFrame_atu (s : State) (l : Fin 4) (mark : FrameMark) (data : List Byte) (bad : Bool)
    (how : FrameEnd) : (s.endFrame l mark data bad how).atu = s.atu := by
  unfold State.endFrame; dsimp only; split <;> simp

@[simp] theorem State.resetLines_atu (s : State) : s.resetLines.atu = s.atu := by
  simp [State.resetLines, State.notifyLinks]

@[simp] theorem State.discardRecords_generator (s : State) :
    s.discardRecords.atu.generator = s.atu.generator := by
  unfold State.discardRecords; split <;> simp

@[simp] theorem State.chainsEffect_generator (s : State) : s.chainsEffect.atu.generator = s.atu.generator := by
  simp [State.chainsEffect]

@[simp] theorem State.settleScope_generator (s : State) : s.settleScope.atu.generator = s.atu.generator := by
  simp [State.settleScope]

@[simp] theorem State.startScope_generator (s : State) : s.startScope.atu.generator = s.atu.generator := by
  simp [State.startScope]

/-! ## The answers of the owners to a control request -/

@[simp] theorem refused_state (s : State) (st : SlotStatus) : (refused s st).state = s := rfl
@[simp] theorem granted_state (s : State) (r : List Byte) : (granted s r).state = s := rfl

@[simp] theorem State.setTimeTo_generator (s : State) (t : Instant) :
    (s.setTimeTo t).atu.generator = s.atu.generator := by
  simp [State.setTimeTo]

@[simp] theorem State.atSetTime_generator (s : State) (t : HostTime) :
    (s.atSetTime t).atu.generator = s.atu.generator := by
  simp [State.atSetTime]

theorem State.setTime_generator (s : State) (t : HostTime) :
    (s.setTime t).state.atu.generator = s.atu.generator := by
  unfold State.setTime; split <;> simp

theorem State.setSteering_generator (s : State) (p k policy : Byte) (limit threshold : BitVec 32) :
    (s.setSteering p k policy limit threshold).state.atu.generator = s.atu.generator := by
  unfold State.setSteering; split <;> simp [State.steer]

theorem State.setTraceLimits_generator (s : State) (divergence floor rate : BitVec 32) :
    (s.setTraceLimits divergence floor rate).state.atu.generator = s.atu.generator := by
  unfold State.setTraceLimits; split <;> simp [State.limitTrace]

theorem State.setAdmission_atu (s : State) (index : Byte) (opened : Bool) :
    (s.setAdmission index opened).state.atu = s.atu := by
  unfold State.setAdmission; split <;> simp

theorem State.setLineParams_atu (s : State) (index a b : Byte) :
    (s.setLineParams index a b).state.atu = s.atu := by
  unfold State.setLineParams; split <;> simp

theorem State.armNow_generator (s : State) (g : Fin 64) (m w x : Nat) (callOpen close : Instant) :
    (s.armNow g m w x callOpen close).state.atu.generator = s.atu.generator := by
  unfold State.armNow; dsimp only; (repeat' split) <;> simp [State.armGroup, armRefused]

theorem State.arm_generator (s : State) (group m : Byte) (w x : BitVec 32) (callOpen close : HostTime) :
    (s.arm group m w x callOpen close).state.atu.generator = s.atu.generator := by
  unfold State.arm; (repeat' split) <;> simp [armRefused, State.armNow_generator]

theorem State.disarm_generator (s : State) (group : Byte) :
    (s.disarm group).state.atu.generator = s.atu.generator := by
  unfold State.disarm State.disarmNow; (repeat' split) <;> simp [State.disarmGroup]

theorem State.setAlarmEntry_generator (s : State) (index : Byte) (period : BitVec 32) (first : HostTime) :
    (s.setAlarmEntry index period first).state.atu.generator = s.atu.generator := by
  unfold State.setAlarmEntry; dsimp only; (repeat' split) <;> simp [State.armAlarm]

theorem State.cancelAlarm_generator (s : State) (index : Byte) :
    (s.cancelAlarm index).state.atu.generator = s.atu.generator := by
  unfold State.cancelAlarm; dsimp only; (repeat' split) <;> simp

theorem State.setEvidence_generator (s : State) (period : Byte) (chk0 chk1 : CheckParams) :
    (s.setEvidence period chk0 chk1).state.atu.generator = s.atu.generator := by
  unfold State.setEvidence; dsimp only; (repeat' split) <;> simp [State.configureEvidence]

theorem State.setCapture_atu (s : State) (flush : BitVec 32) (high low push : BitVec 16) (notifyAll : Byte) :
    (s.setCapture flush high low push notifyAll).state.atu = s.atu := by
  unfold State.setCapture; split <;> simp [State.configureCapture]

theorem State.setSeed_generator (s : State) (seed : BitVec 32) :
    (s.setSeed seed).state.atu.generator = seedOf seed := rfl

end Sys2Proof.Machine
end

section
/-!
No step of the machine makes the generator 0 (R104); it is 1 after a reset of ATU, a release of a WINDOW draws,
and SET_SEED replaces it (R105, R106, R121).
-/

namespace Sys2Proof.Machine

open Sys2Proof

/-! ## States with a generator that is not 0 -/

/-- The generator is not 0 (R104). -/
abbrev State.seeded (s : State) : Prop := s.atu.generator ≠ 0#32

/-- The effect keeps the generator away from 0. -/
def KeepsSeeded (k : State → State) : Prop := ∀ v : State, v.seeded → (k v).seeded

/-- The outcome is no state whose generator is 0. -/
def leavesSeeded (o : Host.Outcome State Fault Refusal) : Prop := ∀ t : State, o = .next t → t.seeded

/-- An effect that draws nothing and sets no seed. -/
theorem KeepsSeeded.of_generator {k : State → State} (h : ∀ v, (k v).atu.generator = v.atu.generator) :
    KeepsSeeded k := fun v hv => by rw [State.seeded, h v]; exact hv

theorem leavesSeeded_next {t : State} (h : t.seeded) : leavesSeeded (.next t) := by
  rintro _ ⟨⟩; exact h

theorem State.keep_seeded {s : State} {k : State → State} (hk : KeepsSeeded k) (hs : s.seeded) :
    (s.keep k).seeded := by
  rcases s.keep_cases k with h | h <;> rw [h]
  · exact hk s hs
  · exact hk _ (by simpa using hs)

/-! ## Releases, and the AUCTIONS scope (R106, R121) -/

theorem State.release_seeded {s : State} (hs : s.seeded) : s.release.seeded := by
  unfold State.release
  split
  · rw [State.seeded, State.releaseFrom_generator]
    exact ite_genDraw_ne_zero hs
  · exact hs

theorem State.releaseHead_seeded {s : State} (src : Source) (hs : s.seeded) : (s.releaseHead src).seeded := by
  rw [State.seeded, State.releaseHead_generator]
  exact ite_genDraw_ne_zero hs

theorem State.releaseNext_seeded {s : State} (hs : s.seeded) : s.releaseNext.seeded := by
  refine State.release_seeded ?_
  simpa [State.settleWork] using hs

theorem State.setSequence_seeded {s : State} (next : BitVec 64) (run : BitVec 32) (hs : s.seeded) :
    (s.setSequence next run).state.seeded := by
  unfold State.setSequence
  split
  · exact hs
  · split
    · exact hs
    · simpa [State.newRun] using State.releaseHead_seeded _ (by simpa using hs)

@[simp] theorem State.resetAuctions_generator (s : State) : s.resetAuctions.atu.generator = 1#32 := rfl

/-- The effect of the AUCTIONS scope sets the generator to 1 while the oscillator runs, or where no group
runs; else it waits (R121, R190). -/
theorem State.auctionsEffect_generator (s : State) : s.auctionsEffect.atu.generator
    = if s.someRunning = true ∧ s.osc = false then s.atu.generator else 1#32 := by
  cases hr : s.someRunning <;> cases ho : s.osc <;>
    simp [State.auctionsEffect, State.resetAbandons, hr, ho]

theorem State.auctionsEffect_seeded {s : State} (hs : s.seeded) : s.auctionsEffect.seeded := by
  rw [State.seeded, State.auctionsEffect_generator]
  split
  · exact hs
  · decide

/-! ## What is done before a command is taken -/

theorem State.settleChains_seeded : KeepsSeeded State.settleChains := by
  intro s hs
  have hscope : s.settleScope.seeded := by simpa using hs
  have hauctions : s.settleScope.settleAuctions.seeded := by
    unfold State.settleAuctions
    split
    · exact State.auctionsEffect_seeded hscope
    · exact hscope
  simpa [State.settleChains] using hauctions

theorem State.settleRest_seeded {s : State} (hs : s.seeded) : s.settleRest.seeded := by
  unfold State.settleRest
  split
  · exact hs
  · refine State.keep_seeded State.settleChains_seeded ?_
    have hfail := State.keep_seeded (.of_generator fun v => by simp) hs (k := State.failWrites)
    simpa using hfail

theorem State.settle_seeded {s : State} (hs : s.seeded) : s.settle.seeded := by
  unfold State.settle
  split
  · exact hs
  · exact State.settleRest_seeded (by simpa using hs)

theorem State.act_seeded {k : State → State} (hk : KeepsSeeded k) {s : State} (hs : s.seeded) :
    (s.act k).seeded := State.keep_seeded hk (State.settle_seeded hs)

theorem State.actIO_seeded {k : State → State} (hk : KeepsSeeded k) {s : State} (hs : s.seeded) :
    (s.actIO k).seeded := State.act_seeded (fun v hv => by simpa using hk v hv) hs

/-- A command that is taken on a condition, and else changes nothing. -/
theorem leavesSeeded_gated {c : Bool} {s t : State} (ht : t.seeded) (hs : s.seeded) :
    leavesSeeded (.next (if c then t else s)) := by
  refine leavesSeeded_next ?_
  split
  · exact ht
  · exact hs

section
variable {k : State → State} {s : State}

theorem portedIO_seeded (hk : KeepsSeeded k) (hs : s.seeded) : leavesSeeded (portedIO s k) :=
  leavesSeeded_gated (State.actIO_seeded hk hs) hs

theorem windowed_seeded (hk : KeepsSeeded k) (hs : s.seeded) : leavesSeeded (windowed s k) :=
  leavesSeeded_gated (State.act_seeded hk hs) hs

theorem linked_seeded (hk : KeepsSeeded k) (hs : s.seeded) : leavesSeeded (linked s k) :=
  leavesSeeded_gated (State.act_seeded hk hs) hs

theorem windowedIO_seeded (hk : KeepsSeeded k) (hs : s.seeded) : leavesSeeded (windowedIO s k) :=
  leavesSeeded_gated (State.actIO_seeded hk hs) hs

theorem ticked_seeded (hk : KeepsSeeded k) (hs : s.seeded) : leavesSeeded (ticked s k) :=
  leavesSeeded_gated (State.act_seeded hk hs) hs

theorem tickedIO_seeded (hk : KeepsSeeded k) (hs : s.seeded) : leavesSeeded (tickedIO s k) :=
  leavesSeeded_gated (State.actIO_seeded hk hs) hs

end

/-- The take of a control slot: what its owner does decides. -/
theorem takeControl_seeded {s : State} (code body : Nat) {owner : State → Answer}
    (ho : KeepsSeeded fun v => (owner v).state) (hs : s.seeded) :
    leavesSeeded (takeControl s code body owner) := by
  refine tickedIO_seeded (fun v hv => ?_) hs
  split
  · rw [State.seeded, State.answer_atu]; exact ho v hv
  · exact hv

theorem takeEngine_seeded {s : State} (code : Nat) (kind : EngineKind) (group : Byte) (payload : List Byte)
    (ok : SlotHead → Bool) (hs : s.seeded) : leavesSeeded (takeEngine s code kind group payload ok) := by
  refine tickedIO_seeded (.of_generator fun v => ?_) hs
  (repeat' split) <;> simp

/-! ## Every command -/

theorem State.powerOn_seeded (s : State) : s.powerOn.seeded := by
  show (1#32 : BitVec 32) ≠ 0#32
  decide

theorem execFull_seeded {s : State} (hs : s.seeded) : leavesSeeded (execFull s) :=
  leavesSeeded_gated s.powerOn_seeded hs

theorem execSupplyOutOfRange_seeded (rail : Rail) (s : State) : leavesSeeded (execSupplyOutOfRange rail s) := by
  cases rail <;> exact leavesSeeded_next s.powerOn_seeded

theorem execOscillatorStop_seeded {s : State} (hs : s.seeded) : leavesSeeded (execOscillatorStop s) := by
  unfold execOscillatorStop
  split
  · exact tickedIO_seeded (.of_generator fun v => by simp) hs
  · exact leavesSeeded_next hs

theorem execDmaReadFailed_seeded {s : State} (c : Chain) (hs : s.seeded) :
    leavesSeeded (execDmaReadFailed c s) :=
  portedIO_seeded (.of_generator fun v => by simp) hs

theorem execDmaWriteFailed_seeded {s : State} (f : FailedWrite) (hs : s.seeded) :
    leavesSeeded (execDmaWriteFailed f s) :=
  leavesSeeded_gated
    (State.keep_seeded (.of_generator fun v => by simp) (State.settleRest_seeded hs)) hs

theorem execFrameEnd_seeded {s : State} (l : Fin 4) (data : List Byte) (bad : Bool) (how : FrameEnd)
    (hs : s.seeded) : leavesSeeded (execFrameEnd l data bad how s) := by
  refine ticked_seeded (.of_generator fun v => ?_) hs
  split <;> simp

theorem execResponseSent_seeded {s : State} (l : Fin 4) (hs : s.seeded) :
    leavesSeeded (execResponseSent l s) := by
  refine ticked_seeded (.of_generator fun v => ?_) hs
  split <;> simp

theorem execSlotHeadRead_seeded {s : State} (c : Chain) (h : SlotHead) (hs : s.seeded) :
    leavesSeeded (execSlotHeadRead c h s) := by
  refine portedIO_seeded (.of_generator fun v => ?_) hs
  (repeat' split) <;> simp

theorem execWriteBackComplete_seeded {s : State} (hs : s.seeded) :
    leavesSeeded (execWriteBackComplete s) := by
  refine portedIO_seeded (.of_generator fun v => ?_) hs
  (repeat' split) <;> simp

theorem execBlockStateWriteComplete_seeded {s : State} (c : Chain) (hs : s.seeded) :
    leavesSeeded (execBlockStateWriteComplete c s) := by
  refine portedIO_seeded (.of_generator fun v => ?_) hs
  (repeat' split) <;> simp

theorem execRecordPlace_seeded {s : State} (hs : s.seeded) : leavesSeeded (execRecordPlace s) := by
  refine portedIO_seeded (.of_generator fun v => ?_) hs
  (repeat' split) <;> simp

theorem execCaptureDoneComplete_seeded {s : State} (hs : s.seeded) :
    leavesSeeded (execCaptureDoneComplete s) := by
  refine portedIO_seeded (.of_generator fun v => ?_) hs
  (repeat' split) <;> simp

theorem execAuctions_seeded {s : State} (hs : s.seeded) : leavesSeeded (execAuctions s) := by
  refine windowed_seeded (fun v hv => ?_) hs
  split
  · exact State.auctionsEffect_seeded hv
  · exact hv

theorem execChainsResetEffect_seeded {s : State} (hs : s.seeded) :
    leavesSeeded (execChainsResetEffect s) := by
  refine leavesSeeded_gated ?_ hs
  unfold State.takeScope
  split
  · exact State.keep_seeded (.of_generator fun v => by simp) (by simpa using hs)
  · exact hs

/-- No command makes the generator 0. -/
theorem exec_seeded (i : Instr) {s : State} (hs : s.seeded) : leavesSeeded (exec i s) := by
  cases i with
  | powerOn => exact leavesSeeded_next s.powerOn_seeded
  | conventionalReset => exact leavesSeeded_next s.powerOn_seeded
  | supplyOutOfRange rail => exact execSupplyOutOfRange_seeded rail s
  | full => exact execFull_seeded hs
  | oscillatorStop => exact execOscillatorStop_seeded hs
  | oscillatorReturn => exact leavesSeeded_next hs
  | oscillatorPeriod => exact tickedIO_seeded (.of_generator fun v => by simp) hs
  | refSyncGained => exact ticked_seeded (.of_generator fun v => by simp) hs
  | refSyncLost why => exact ticked_seeded (.of_generator fun v => by simp) hs
  | refFrameEnd data how => exact ticked_seeded (.of_generator fun v => by simp) hs
  | marker => exact ticked_seeded (.of_generator fun v => by simp [State.latchMarker]) hs
  | missingMarkerExpiry => exact ticked_seeded (.of_generator fun v => by simp) hs
  | actionInstant => exact ticked_seeded (.of_generator fun v => by simp) hs
  | holdoverSecond => exact ticked_seeded (.of_generator fun v => by simp) hs
  | linkUp l => exact ticked_seeded (.of_generator fun v => by simp) hs
  | linkDown l why => exact ticked_seeded (.of_generator fun v => by simp) hs
  | frameStart l => exact ticked_seeded (.of_generator fun v => by simp) hs
  | frameEnd l data bad how => exact execFrameEnd_seeded l data bad how hs
  | responseSent l => exact execResponseSent_seeded l hs
  | flowSymbolSent l => exact ticked_seeded (.of_generator fun v => by simp) hs
  | release => exact tickedIO_seeded (fun v => State.releaseNext_seeded) hs
  | callOpenTimer g => exact leavesSeeded_gated (by simpa using hs) hs
  | closeWindowTimer g => exact leavesSeeded_gated (by simpa using hs) hs
  | closeTimer g => exact leavesSeeded_gated (by simpa using hs) hs
  | alarmTimer a => exact leavesSeeded_gated (by simpa using hs) hs
  | attestBoundary => exact ticked_seeded (.of_generator fun v => by simp) hs
  | checkRisingTransition c => exact ticked_seeded (.of_generator fun v => by simp [State.beginPulse]) hs
  | checkPulseDropped c => exact ticked_seeded (.of_generator fun v => by simp) hs
  | checkEdgeRecognized c => exact ticked_seeded (.of_generator fun v => by simp) hs
  | checkSecondJudged => exact ticked_seeded (.of_generator fun v => by simp) hs
  | flushTimerExpiry => exact tickedIO_seeded (.of_generator fun v => by simp) hs
  | blockHeaderRead c h => exact portedIO_seeded (.of_generator fun v => by simp) hs
  | nextAddressRead c a => exact portedIO_seeded (.of_generator fun v => by simp) hs
  | slotHeadRead c h => exact execSlotHeadRead_seeded c h hs
  | writeBackComplete => exact execWriteBackComplete_seeded hs
  | blockStateWriteComplete c => exact execBlockStateWriteComplete_seeded c hs
  | recordPlace => exact execRecordPlace_seeded hs
  | captureDoneComplete => exact execCaptureDoneComplete_seeded hs
  | dmaReadFailed c => exact execDmaReadFailed_seeded c hs
  | dmaReadTimeout c => exact execDmaReadFailed_seeded c hs
  | dmaWriteFailed f => exact execDmaWriteFailed_seeded f hs
  | setTime t => exact takeControl_seeded _ _ (.of_generator fun v => by simp [State.setTime_generator]) hs
  | setSteering p k policy limit threshold =>
    exact takeControl_seeded _ _ (.of_generator fun v => v.setSteering_generator p k policy limit threshold) hs
  | setTraceLimits divergence floor rate =>
    exact takeControl_seeded _ _ (.of_generator fun v => v.setTraceLimits_generator divergence floor rate) hs
  | openLine index => exact takeControl_seeded _ _ (.of_generator fun v => by rw [v.setAdmission_atu]) hs
  | closeLine index => exact takeControl_seeded _ _ (.of_generator fun v => by rw [v.setAdmission_atu]) hs
  | setLineParams index a b =>
    exact takeControl_seeded _ _ (.of_generator fun v => by rw [v.setLineParams_atu]) hs
  | setSequence next run => exact takeControl_seeded _ _ (fun v => State.setSequence_seeded next run) hs
  | armGroup g m w x o c => exact takeControl_seeded _ _ (.of_generator fun v => v.arm_generator g m w x o c) hs
  | disarmGroup g => exact takeControl_seeded _ _ (.of_generator fun v => v.disarm_generator g) hs
  | setSeed seed => exact takeControl_seeded _ _ (fun v _ => seedOf_ne_zero seed) hs
  | setAlarm index period first =>
    exact takeControl_seeded _ _ (.of_generator fun v => v.setAlarmEntry_generator index period first) hs
  | cancelAlarm index => exact takeControl_seeded _ _ (.of_generator fun v => v.cancelAlarm_generator index) hs
  | setEvidenceParams period c0 c1 =>
    exact takeControl_seeded _ _ (.of_generator fun v => v.setEvidence_generator period c0 c1) hs
  | queryStatus => exact takeControl_seeded _ _ (.of_generator fun v => v.acted_generator) hs
  | setCaptureParams flush high low push all =>
    exact takeControl_seeded _ _ (.of_generator fun v => by rw [v.setCapture_atu]) hs
  | stamp g n payload => exact takeEngine_seeded _ _ _ _ _ hs
  | extend g => exact takeEngine_seeded _ _ _ _ _ hs
  | abandon g => exact takeEngine_seeded _ _ _ _ _ hs
  | start c => exact windowedIO_seeded (.of_generator fun v => by rw [v.command_atu c (v.startChain_atu c)]) hs
  | resume c => exact windowedIO_seeded (.of_generator fun v => by rw [v.command_atu c (v.resumeChain_atu c)]) hs
  | stop c => exact windowedIO_seeded (.of_generator fun v => by rw [v.command_atu c (v.stopChain_atu c)]) hs
  | chainCommandUndefined c => exact windowed_seeded (.of_generator fun v => by simp) hs
  | chainAddrWrite c part value => exact windowed_seeded (.of_generator fun v => by simp) hs
  | noticeClear v => exact windowed_seeded (.of_generator fun _ => rfl) hs
  | noticeEnableWrite v => exact windowed_seeded (.of_generator fun _ => rfl) hs
  | vectorUnmasked => exact linked_seeded (.of_generator fun _ => rfl) hs
  | registerWriteIgnored w => exact leavesSeeded_next hs
  | lines => exact windowed_seeded (.of_generator fun v => by simp) hs
  | auctions => exact execAuctions_seeded hs
  | chains => exact windowed_seeded (.of_generator fun v => by simp) hs
  | chainsResetEffect => exact execChainsResetEffect_seeded hs

theorem step_seeded {s : State} (hs : s.seeded) : leavesSeeded (step s) := by
  unfold step
  split
  · exact leavesSeeded_next hs
  · exact exec_seeded _ hs

/-! ## The commands that set the generator -/

/-- The AUCTIONS scope sets the generator to 1 (R121). -/
theorem exec_auctions_generator {s : State} (hs : s.served) (hi : s.prt.auctions = .idle) :
    ∃ t : State, exec .auctions s = .next t ∧ t.atu.generator = 1#32 := by
  obtain ⟨⟨-, hosc, -⟩, -, -⟩ := id hs
  refine ⟨_, windowed_of_served hs _, ?_⟩
  simp [hi, State.auctionsEffect_generator, hosc]

theorem exec_full_generator {s : State} (hs : s.served) :
    ∃ t : State, exec .full s = .next t ∧ t.atu.generator = 1#32 := by
  obtain ⟨⟨hp, -, -⟩, hl, hc⟩ := hs
  have hseen : s.ep.seen = true := by simp [Endpoint.seen, hl, hc]
  exact ⟨_, congrArg Host.Outcome.next (if_pos (by simp [hp, hseen])), rfl⟩

/-- The release of a WINDOW advances the generator by a draw (R106). -/
theorem exec_release_draws {s : State} {e : Internal} {rest : List Internal} {g : Fin 64}
    (h : s.releases .internal) (ha : s.sqm.agenda = e :: rest) (hg : e.group = g.val)
    (hw : e.body.isWindow = true) :
    ∃ t : State, exec .release s = .next t ∧ t.atu.generator = genDraw s.atu.generator := by
  have hdraws : s.drawsAt .internal = true := by
    simp [State.drawsAt, ha, Internal.draws, hw, hg]
  obtain ⟨-, -, -, -, hrel⟩ := id h
  have hnext : s.atInstant.nextRelease = some .internal := State.nextRelease_eq hrel
  refine ⟨_, execRelease_of_releases h, ?_⟩
  simp [State.release, hnext, State.releaseFrom_generator, hdraws]

/-- SET_SEED replaces the generator (R105). -/
theorem exec_setSeed_generator {s : State} {off : Nat} {h : SlotHead} (hs : s.requestAt 0x0A off h)
    (seed : BitVec 32) :
    ∃ t : State, exec (.setSeed seed) s = .next t ∧ t.atu.generator = seedOf seed :=
  ⟨_, takeControl_of_requestAt hs 8 (fun v => v.setSeed seed) rfl rfl rfl rfl, by
    rw [State.slotAnswered_atu, State.setSeed_generator]⟩

/-- Settles O39: a step of the generator and a draw by their definitions, that no step of the machine makes it 0
by `exec_seeded`, and what each command that sets it leaves. -/
theorem generator : Obligations.Generator := by
  unfold Obligations.Generator
  refine ⟨fun _ => rfl, by decide, fun g hg => ⟨genStep_ne_zero hg, genDraw_ne_zero hg, genStep_highest⟩,
    genDraw_eq_iterate, rfl,
    fun s => ⟨⟨_, rfl, rfl⟩, fun hs => ⟨exec_full_generator hs, exec_auctions_generator hs⟩⟩,
    fun s t hs => step_seeded hs t, fun s e rest g h ha hg hw => ?_,
    fun s off h seed hs => exec_setSeed_generator hs seed⟩
  rw [← genDraw_eq_iterate]
  exact exec_release_draws h ha hg hw

end Sys2Proof.Machine
end

section
/-!
SUPPORT. What a step of the machine keeps. `State.Keeps s t` says that every invariant of `s` holds in `t`, that
the waiting commands stay and that nothing sent is taken back; every operation of the model is shown to keep,
the plain updates block by block and the composite ones by composition.
-/

namespace Sys2Proof.Machine

open Sys2Proof

/-! ## The relation -/

/-- Every group entry lies in its ranges. -/
abbrev State.groupsOk (s : State) : Prop := ∀ g : Fin 64, (s.group g).ok

/-- From `s` to `t` every block but PST with its numbers stays sound, the queue stays, and nothing sent is taken
back. -/
structure State.KeepsBlocks (s t : State) : Prop where
  time : s.timeOk → t.timeOk
  bound : s.boundOk → t.boundOk
  lines : s.linesOk → t.linesOk
  agenda : s.sqm.agendaOk → t.sqm.agendaOk
  groups : s.groupsOk → t.groupsOk
  evidence : s.evidenceOk → t.evidenceOk
  chains : s.chainsOk → t.chainsOk
  pending : t.pending = s.pending
  wire : ∃ sent : List Output, t.wire = sent ++ s.wire

/-- The same, and PST stays under one unbroken range of numbers. -/
structure State.Keeps (s t : State) : Prop extends State.KeepsBlocks s t where
  store : s.storeOk → t.storeOk

theorem State.KeepsBlocks.refl (s : State) : s.KeepsBlocks s :=
  ⟨id, id, id, id, id, id, id, rfl, [], rfl⟩

theorem State.KeepsBlocks.trans {s t u : State} (h : s.KeepsBlocks t) (k : t.KeepsBlocks u) : s.KeepsBlocks u where
  time := k.time ∘ h.time
  bound := k.bound ∘ h.bound
  lines := k.lines ∘ h.lines
  agenda := k.agenda ∘ h.agenda
  groups := k.groups ∘ h.groups
  evidence := k.evidence ∘ h.evidence
  chains := k.chains ∘ h.chains
  pending := k.pending.trans h.pending
  wire := by
    obtain ⟨a, ha⟩ := h.wire
    obtain ⟨b, hb⟩ := k.wire
    exact ⟨b ++ a, by rw [hb, ha, List.append_assoc]⟩

theorem State.Keeps.refl (s : State) : s.Keeps s := ⟨.refl s, id⟩

theorem State.Keeps.trans {s t u : State} (h : s.Keeps t) (k : t.Keeps u) : s.Keeps u :=
  ⟨h.toKeepsBlocks.trans k.toKeepsBlocks, k.store ∘ h.store⟩

/-- A branch is shown to keep under its condition. -/
theorem State.Keeps.ite {s a b : State} {c : Prop} [Decidable c] (ha : c → s.Keeps a) (hb : ¬ c → s.Keeps b) :
    s.Keeps (if c then a else b) := by
  split
  · next h => exact ha h
  · next h => exact hb h

theorem State.Keeps.foldl {α : Type} {f : State → α → State} (hf : ∀ (s : State) (a : α), s.Keeps (f s a)) (l : List α)
    (s : State) : s.Keeps (l.foldl f s) := by
  induction l generalizing s with
  | nil => exact .refl s
  | cons a l ih => exact (hf s a).trans (ih _)

theorem State.Keeps.times {f : State → State} (hf : ∀ s : State, s.Keeps (f s)) (n : Nat) (s : State) :
    s.Keeps (times f n s) := by
  induction n generalizing s with
  | zero => exact .refl s
  | succ n ih => exact (hf s).trans (ih _)

/-! ## Updates of one block -/

/-- Time and discipline. -/
theorem State.Keeps.of_time {s : State} {clock : OwnClock} {tb : TB} {du : DU}
    (ht : s.timeOk → State.timeOk { s with clock := clock, tb := tb, du := du })
    (hb : s.boundOk → State.boundOk { s with clock := clock, tb := tb, du := du }) :
    s.Keeps { s with clock := clock, tb := tb, du := du } :=
  ⟨⟨ht, hb, id, id, id, id, id, rfl, [], rfl⟩, id⟩

/-- The order lines. -/
theorem State.Keeps.of_lines {s : State} {q : Quad Line} (h : s.linesOk → ∀ l, (q.get l).ok) :
    s.Keeps { s with lines := q } :=
  ⟨⟨id, id, h, id, id, id, id, rfl, [], rfl⟩, id⟩

/-- The internal agenda. -/
theorem State.Keeps.of_agenda {s : State} {created : Nat} {agenda : List Internal}
    (h : s.sqm.agendaOk → SQM.agendaOk { s.sqm with created := created, agenda := agenda }) :
    s.Keeps { s with sqm := { s.sqm with created := created, agenda := agenda } } :=
  ⟨⟨id, id, id, h, id, id, id, rfl, [], rfl⟩, id⟩

/-- Groups, alarms and the generator. -/
theorem State.Keeps.of_atu {s : State} {atu : ATU} (h : s.groupsOk → ∀ g : Fin 64, (atu.groups.get g).ok) :
    s.Keeps { s with atu := atu } :=
  ⟨⟨id, id, id, id, h, id, id, rfl, [], rfl⟩, id⟩

/-- The attestation unit. -/
theorem State.Keeps.of_att {s : State} {att : ATT} (h : s.evidenceOk → State.evidenceOk { s with att := att }) :
    s.Keeps { s with att := att } :=
  ⟨⟨id, id, id, id, id, h, id, rfl, [], rfl⟩, id⟩

/-- The chain engine. -/
theorem State.Keeps.of_chains {s : State} {ctl : CTL} {evt : EVT} {cap : CAP}
    (h : s.chainsOk → State.chainsOk { s with ctl := ctl, evt := evt, cap := cap }) :
    s.Keeps { s with ctl := ctl, evt := evt, cap := cap } :=
  ⟨⟨id, id, id, id, id, id, h, rfl, [], rfl⟩, id⟩

/-- The port, the endpoint, the accesses in flight and what is sent, of which no invariant speaks. -/
theorem State.Keeps.of_port {s : State} {prt : PRT} {ep : Endpoint} {posted : List HostWrite} {draws : Nat}
    {wire : List Output} (h : ∃ sent : List Output, wire = sent ++ s.wire) :
    s.Keeps { s with prt := prt, ep := ep, posted := posted, wire := wire, draws := draws } :=
  ⟨⟨id, id, id, id, id, id, id, rfl, h⟩, id⟩

/-- PST with the placed records, and the open block. -/
theorem State.Keeps.of_pst {s : State} {pst : PST} (h : s.storeOk → State.storeOk { s with pst := pst }) :
    s.Keeps { s with pst := pst } :=
  ⟨⟨id, id, id, id, id, id, id, rfl, [], rfl⟩, h⟩

/-! ## Notices and host writes -/

theorem State.message_keeps (s : State) (due : Bool) : s.Keeps (s.message due) :=
  .of_port (by split <;> [exact ⟨[.interrupt], rfl⟩; exact ⟨[], rfl⟩])

theorem State.notify_keeps (s : State) (c : Cause) : s.Keeps (s.notify c) :=
  .of_port (by
    unfold State.message
    dsimp only
    split <;> [exact ⟨[.interrupt], rfl⟩; exact ⟨[], rfl⟩])

theorem State.notifyIf_keeps (s : State) (b : Bool) (c : Cause) : s.Keeps (s.notifyIf b c) :=
  .ite (fun _ => s.notify_keeps c) fun _ => .refl s

theorem State.post_keeps (s : State) (ws : List HostWrite) : s.Keeps (s.post ws) := .of_port ⟨[], rfl⟩

theorem State.sendPlain_keeps (s : State) : s.Keeps s.sendPlain := .of_port ⟨_, rfl⟩

theorem State.sendFirst_keeps (s : State) (n : Nat) : s.Keeps (s.sendFirst n) := .of_port ⟨_, rfl⟩

theorem State.sendWrites_keeps (s : State) : s.Keeps s.sendWrites := by
  unfold State.sendWrites
  dsimp only
  split
  · exact .of_port ⟨_, rfl⟩
  · exact .refl s

theorem State.abandonWrites_keeps (s : State) : s.Keeps s.abandonWrites := .of_port ⟨_, rfl⟩

/-! ## The agenda -/

/-- A record that arrives is inserted in agenda order or merged, and keeps the agenda sound (R86, R87). -/
theorem arrive_agendaOk {q : SQM} {e : Internal} (h : q.agendaOk) (he : e.order = q.created) :
    SQM.agendaOk { q with created := q.created + 1, agenda := arrive e q.agenda } := by
  obtain ⟨hkey, hclass, horder⟩ := h
  have hlater (w : Internal) (hw : w ∈ q.agenda) : w.key ≠ e.key :=
    Internal.key_ne (by have := horder w hw; omega)
  obtain ⟨hnone, heq⟩ | ⟨-, heq⟩ := arrive_cases e q.agenda
  · simp only [SQM.agendaOk, heq]
    refine ⟨insertAgenda_pairwise hkey (fun _ _ hk => hk) (fun w hw hk => ?_) (fun w _ hk v _ hv => keyLt_trans hk hv),
      insertAgenda_pairwise hclass (fun w hw _ => ?_) (fun w hw _ => hnone w hw) (fun _ _ _ v hv _ => ?_),
      fun w hw => ?_⟩
    · exact (keyLt_total (a := w.key) (b := e.key) rfl (hlater w hw)).resolve_right (by simp [hk])
    · rw [Body.sameClass_symm]; exact hnone w hw
    · rw [Body.sameClass_symm]; exact hnone v hv
    · rcases mem_insertAgenda.mp hw with rfl | hw
      · omega
      · exact Nat.lt_succ_of_lt (horder w hw)
  · have hmerge (w : Internal) : (if w.body.sameClass e.body then w.merge e else w).key = w.key
        ∧ (if w.body.sameClass e.body then w.merge e else w).order = w.order := by
      split
      · exact ⟨Internal.merge_key w e, rfl⟩
      · exact ⟨rfl, rfl⟩
    have hbody (w : Internal) (b : Body) :
        (if w.body.sameClass e.body then w.merge e else w).body.sameClass b = w.body.sameClass b := by
      split <;> simp [Internal.merge, Body.sameClass_merge]
    simp only [SQM.agendaOk, heq, List.pairwise_map, List.mem_map]
    refine ⟨hkey.imp fun h => ?_, hclass.imp fun h => ?_, ?_⟩
    · rwa [(hmerge _).1, (hmerge _).1]
    · rwa [hbody, Body.sameClass_symm, hbody, Body.sameClass_symm]
    · rintro _ ⟨w, hw, rfl⟩
      rw [(hmerge w).2]
      exact Nat.lt_succ_of_lt (horder w hw)

theorem State.create_keeps (s : State) (stamp : Stamp) (cls : TraceClass) (group : Nat) (late stepped : Bool)
    (body : Body) : s.Keeps (s.create stamp cls group late stepped body) :=
  .of_agenda fun h => arrive_agendaOk h rfl

theorem State.createNow_keeps (s : State) (body : Body) : s.Keeps (s.createNow body) := s.create_keeps ..

theorem State.createLeft_keeps (s : State) (body : Body) : s.Keeps (s.createLeft body) := s.create_keeps ..

theorem SQM.agendaOk_filter {q : SQM} (h : q.agendaOk) (p : Internal → Bool) :
    SQM.agendaOk { q with agenda := q.agenda.filter p } :=
  ⟨h.1.filter p, h.2.1.filter p, fun e he => h.2.2 e (List.mem_filter.mp he).1⟩

theorem State.removeRecords_keeps (s : State) (p : Internal → Bool) : s.Keeps (s.removeRecords p) :=
  .of_agenda fun h => SQM.agendaOk_filter h _

theorem State.removeGroupRecords_keeps (s : State) (g : Fin 64) (p : Body → Bool) :
    s.Keeps (s.removeGroupRecords g p) := s.removeRecords_keeps _

/-! ## The lines' flow states -/

theorem State.setLine_keeps {s : State} {l : Fin 4} {x : Line} (h : (s.line l).ok → x.ok) :
    s.Keeps (s.setLine l x) :=
  .of_lines fun hs k => by
    by_cases hk : k = l
    · subst hk; rw [Quad.get_set]; exact h (hs k)
    · rw [Quad.get_set_ne _ _ hk]; exact hs k

theorem Line.evalFlow_ok {l : Line} (fill high low : Nat) (h : l.ok) : (l.evalFlow fill high low).ok := h

theorem State.flowLine_keeps (s : State) (l : Fin 4) : s.Keeps (s.flowLine l) :=
  State.setLine_keeps (Line.evalFlow_ok _ _ _)

theorem State.flowAll_keeps (s : State) : s.Keeps s.flowAll :=
  .of_lines fun h l => by rw [Quad.get_map]; exact Line.evalFlow_ok _ _ _ (h l)

/-- PST given other records: the lines and notices follow; the store is for the caller to judge. -/
theorem State.setRecords_keepsBlocks (s : State) (rs : List Record) : s.KeepsBlocks (s.setRecords rs) := by
  have h : s.KeepsBlocks { s with pst := { s.pst with records := rs } } :=
    ⟨id, id, id, id, id, id, id, rfl, [], rfl⟩
  exact h.trans ((State.flowAll_keeps _).trans (State.notifyIf_keeps _ _ _)).toKeepsBlocks

end Sys2Proof.Machine
end

section
/-! SUPPORT. Auctions, evidence and discipline keep every invariant (chapters 1, 2, 5, 6). -/

namespace Sys2Proof.Machine

open Sys2Proof

/-- What follows where a condition holds. -/
theorem State.Keeps.thenIf {s u t : State} {c : Prop} [Decidable c] (h : s.Keeps u) (k : c → u.Keeps t) :
    s.Keeps (if c then t else u) :=
  .ite (fun hc => h.trans (k hc)) fun _ => h

/-! ## Groups and alarms -/

theorem State.setGroup_keeps {s : State} {g : Fin 64} {x : Group} (h : (s.group g).ok → x.ok) :
    s.Keeps (s.setGroup g x) :=
  .of_atu fun hs k => by
    by_cases hk : k = g
    · subst hk
      have hx : (s.setGroup k x).group k = x := s.setGroup_group k x
      change ((s.setGroup k x).group k).ok
      rw [hx]; exact h (hs k)
    · have hx : (s.setGroup g x).group k = s.group k := s.setGroup_group_ne x hk
      change ((s.setGroup g x).group k).ok
      rw [hx]; exact hs k

theorem State.setAlarm_keeps (s : State) (a : Fin 8) (x : Option Alarm) : s.Keeps (s.setAlarm a x) := .of_atu id

theorem Group.powerOn_ok : Group.powerOn.ok := by decide

theorem ATU.powerOn_group (g : Fin 64) : ATU.powerOn.groups.get g = Group.powerOn := by
  simp [ATU.powerOn, Vector.get]

theorem ATU.powerOn_ok (g : Fin 64) : (ATU.powerOn.groups.get g).ok := by
  rw [ATU.powerOn_group]; exact Group.powerOn_ok

theorem State.runCallOpen_keeps (s : State) (g : Fin 64) (epoch : Nat) (cls : TraceClass) (late stepped : Bool) :
    s.Keeps (s.runCallOpen g epoch cls late stepped) :=
  (State.setGroup_keeps (by exact id)).trans (State.create_keeps ..)

theorem State.runWindow_keeps (s : State) (g : Fin 64) (cls : TraceClass) (stepped : Bool) :
    s.Keeps (s.runWindow g cls stepped) :=
  (State.setGroup_keeps (by exact id)).trans (State.create_keeps ..)

theorem State.createClose_keeps (s : State) (g : Fin 64) (drawn : Stamp) (cls : TraceClass) (stepped : Bool) :
    s.Keeps (s.createClose g drawn cls stepped) := s.create_keeps ..

theorem State.runClose_keeps (s : State) (g : Fin 64) (cls : TraceClass) (stepped : Bool) :
    s.Keeps (s.runClose g cls stepped) := by
  unfold State.runClose
  split
  · exact (State.setGroup_keeps (by exact id)).trans (State.createClose_keeps ..)
  · exact .refl s

theorem State.runAlarm_keeps (s : State) (a : Fin 8) (epoch : Nat) (cls : TraceClass) :
    s.Keeps (s.runAlarm a epoch cls) := by
  unfold State.runAlarm
  split
  · exact .refl s
  · exact ((s.setAlarm_keeps _ _).trans (State.create_keeps ..)).trans (State.notify_keeps ..)

theorem State.settleGroup_keeps (cls : TraceClass) (s : State) (g : Fin 64) :
    s.Keeps (State.settleGroup cls s g) := by
  unfold State.settleGroup
  exact (((State.Keeps.refl s).thenIf fun _ => State.runCallOpen_keeps ..).thenIf
    fun _ => State.runWindow_keeps ..).thenIf fun _ => State.runClose_keeps ..

theorem State.settleAlarm_keeps (cls : TraceClass) (s : State) (a : Fin 8) : s.Keeps (State.settleAlarm cls s a) :=
  (State.Keeps.refl s).thenIf fun _ => State.runAlarm_keeps ..

theorem State.settleTimers_keeps (s : State) (cls : TraceClass) : s.Keeps (s.settleTimers cls) :=
  (State.Keeps.refl s).thenIf fun _ =>
    (State.Keeps.foldl (State.settleGroup_keeps cls) _ _).trans (State.Keeps.foldl (State.settleAlarm_keeps cls) _ _)

theorem State.passGroup_keeps (pre post : Instant) (s : State) (g : Fin 64) :
    s.Keeps (State.passGroup pre post s g) := by
  unfold State.passGroup
  exact ((((State.Keeps.refl s).thenIf fun _ => State.runCallOpen_keeps ..).thenIf
    fun _ => State.runWindow_keeps ..).thenIf fun _ => State.runClose_keeps ..).thenIf
    fun _ => State.setGroup_keeps (by exact id)

theorem State.passAlarm_keeps_all (pre post : Instant) (s : State) (a : Fin 8) :
    s.Keeps (State.passAlarm pre post s a) := by
  unfold State.passAlarm
  split
  · exact .refl s
  · exact (State.Keeps.refl s).thenIf fun _ =>
      ((s.setAlarm_keeps _ _).trans (State.create_keeps ..)).trans (State.notify_keeps ..)

theorem State.passTimers_keeps (s : State) (pre post : Instant) : s.Keeps (s.passTimers pre post) :=
  (State.Keeps.foldl (State.passGroup_keeps pre post) _ s).trans
    (State.Keeps.foldl (State.passAlarm_keeps_all pre post) _ _)

theorem State.abandonGroup_keeps (pre : Stamp) (cls : TraceClass) (s : State) (g : Fin 64) :
    s.Keeps (State.abandonGroup pre cls s g) :=
  (State.Keeps.refl s).thenIf fun _ =>
    ((s.removeGroupRecords_keeps g _).trans (State.setGroup_keeps (by exact id))).trans (State.create_keeps ..)

theorem State.abandonRunning_keeps (s : State) (pre : Stamp) (cls : TraceClass) :
    s.Keeps (s.abandonRunning pre cls) :=
  State.Keeps.foldl (State.abandonGroup_keeps pre cls) _ s

theorem State.resetAbandon_keeps (old : ATU) (s : State) (g : Fin 64) : s.Keeps (State.resetAbandon old s g) :=
  (State.Keeps.refl s).thenIf fun _ => State.create_keeps ..

theorem State.armWindow_keeps (s : State) (g : Fin 64) : s.Keeps (s.armWindow g) :=
  .ite (fun _ => State.runWindow_keeps ..) fun _ => State.setGroup_keeps (by exact id)

/-- An EXTEND is accepted only while an extension is left (R109, R110). -/
theorem Group.used_lt_of_extendStatus {x : Group} (h : x.extendStatus = .ok) (hx : x.ok) : x.used + 1 ≤ x.m := by
  have hne : x.used ≠ x.m := by
    intro he
    unfold Group.extendStatus at h
    cases hp : x.phase <;> cases ha : x.abandonPending <;> simp [hp, ha, he] at h
  obtain ⟨hle, -⟩ := hx
  omega

theorem State.extendGroup_keeps (s : State) (g : Fin 64) (t : Stamp) (h : (s.group g).extendStatus = .ok) :
    s.Keeps (s.extendGroup g t) := by
  have hset (p : Body → Bool) (x : Group) (hu : x.used = (s.group g).used + 1) (hm : x.m = (s.group g).m)
      (hw : x.w = (s.group g).w) (hx : x.x = (s.group g).x) (hc : x.callCount = (s.group g).callCount) :
      s.Keeps (((s.removeGroupRecords g p).setGroup g x).armWindow g) := by
    refine ((s.removeGroupRecords_keeps g p).trans (State.setGroup_keeps fun hok => ?_)).trans
      (State.armWindow_keeps ..)
    have hok : (s.group g).ok := hok
    have hlt := Group.used_lt_of_extendStatus h hok
    obtain ⟨-, h2, h3, h4, h5⟩ := hok
    exact ⟨by omega, by omega, by omega, by omega, by omega⟩
  unfold State.extendGroup
  dsimp only
  split
  · exact hset _ _ rfl rfl rfl rfl rfl
  · exact hset _ _ rfl rfl rfl rfl rfl

theorem State.releaseExtend_keeps (s : State) (group : Nat) (t : Stamp) : s.Keeps (s.releaseExtend group t).1 := by
  unfold State.releaseExtend
  split
  · exact .refl s
  · exact (State.Keeps.refl s).thenIf fun h => s.extendGroup_keeps _ t h

theorem State.releaseAbandon_keeps (s : State) (group : Nat) : s.Keeps (s.releaseAbandon group).1 := by
  unfold State.releaseAbandon
  split
  · exact .refl s
  · dsimp only
    split
    · exact (s.removeGroupRecords_keeps _ _).trans (State.setGroup_keeps fun _ => Group.powerOn_ok)
    · exact .refl s

theorem State.phaseTag_keeps (s : State) (group : Nat) : s.Keeps (s.phaseTag group).1 := by
  unfold State.phaseTag
  split
  · exact .refl s
  · refine State.setGroup_keeps fun ⟨h1, h2, h3, h4, h5⟩ => ⟨h1, h2, h3, h4, ?_⟩
    dsimp only
    split
    · exact satAdd_le ..
    · exact h5

theorem State.releaseGroup_keeps (s : State) (g : Fin 64) (body : Body) : s.Keeps (s.releaseGroup g body) := by
  cases body with
  | schedule b => exact State.setGroup_keeps (by exact id)
  | phase l => exact State.setGroup_keeps fun ⟨h1, h2, h3, h4, _⟩ => ⟨h1, h2, h3, h4, Nat.zero_le _⟩
  | close d n u l => exact (State.setGroup_keeps (by exact id)).trans (State.notify_keeps ..)
  | abandon a => exact State.setGroup_keeps fun _ => Group.powerOn_ok
  | _ => exact .refl s

theorem State.drawWindow_keeps (s : State) (g : Fin 64) (epoch : Nat) : s.Keeps (s.drawWindow g epoch).1 := by
  have hgen : s.Keeps { s with atu := { s.atu with generator := genDraw s.atu.generator } } := .of_atu id
  unfold State.drawWindow
  dsimp only
  exact (hgen.trans (State.setGroup_keeps (by exact id))).thenIf fun _ => State.createClose_keeps ..

/-! ## Evidence -/

theorem State.handOver_keeps (s : State) : s.Keeps s.handOver := .of_att id

theorem State.handServo_keeps (s : State) (theta : Int) : s.Keeps (s.handServo theta) :=
  .of_att fun ⟨h1, h2, _, _, h5, h6⟩ => by
    refine ⟨h1, h2, satAdd_le .., ?_, h5, h6⟩
    simp [satAdd]

theorem State.handReference_keeps (s : State) (v : Seen) : s.Keeps (s.handReference v) := .of_att id

theorem State.handHeld_keeps (s : State) : s.Keeps s.handHeld := .of_att id

theorem Counters.zero_ok : Counters.zero.ok := by decide

theorem Check.restart_ok {k : Check} (h : k.ok) : k.restart.ok := ⟨Nat.zero_le _, Nat.zero_le _, h.2.2⟩

theorem State.emitBoundary_keeps (s v : State) : s.Keeps (s.emitBoundary v) := by
  unfold State.emitBoundary
  dsimp only
  refine (s.create_keeps ⟨s.tb.epoch, s.att.nextBoundary, 0⟩ v.du.cls 255 false false (.attest (s.snapshot v ⟨s.tb.epoch, s.att.nextBoundary, 0⟩))).trans ?_
  refine .trans (.of_lines (q := s.lines.map fun l => { l with counters := Counters.zero }) fun h l => ?_)
    (.of_att (att := s.restartPeriod v _) fun ⟨h1, h2, _, _, h5, h6⟩ => ?_)
  · rw [Quad.get_map]
    obtain ⟨hf, ha, -, hr⟩ := h l
    exact ⟨hf, ha, Counters.zero_ok, hr⟩
  · exact ⟨h1, h2, Nat.zero_le _, by simp [State.restartPeriod], Check.restart_ok h5, Check.restart_ok h6⟩

theorem State.judgeCheck_ok (s : State) {k : Check} (h : k.ok) : (s.judgeCheck k).ok := by
  obtain ⟨h1, h2, h3, h4⟩ := h
  unfold State.judgeCheck
  split
  · refine ⟨h1, ?_, h3, h4⟩
    dsimp only
    split
    · exact satAdd_le ..
    · exact h2
  · exact ⟨h1, h2, h3, h4⟩

theorem State.judgeSecond_keeps (s : State) : s.Keeps s.judgeSecond :=
  .trans (.of_att (att := { s.att with chk0 := s.judgeCheck s.att.chk0, chk1 := s.judgeCheck s.att.chk1 })
    fun ⟨h1, h2, h3, h4, h5, h6⟩ => ⟨h1, h2, h3, h4, s.judgeCheck_ok h5, s.judgeCheck_ok h6⟩) (.of_time id id)

theorem State.settleJudge_keeps (s : State) : s.Keeps s.settleJudge :=
  (State.Keeps.refl s).thenIf fun _ => s.judgeSecond_keeps

theorem State.setCheck_keeps {s : State} {k : CheckInput} {x : Check} (h : (s.check k).ok → x.ok) :
    s.Keeps (s.setCheck k x) := by
  cases k with
  | chk0 => exact .of_att fun ⟨h1, h2, h3, h4, h5, h6⟩ => ⟨h1, h2, h3, h4, h h5, h6⟩
  | chk1 => exact .of_att fun ⟨h1, h2, h3, h4, h5, h6⟩ => ⟨h1, h2, h3, h4, h5, h h6⟩

theorem State.recognizeEdge_keeps (s : State) (c : CheckInput) (now : Stamp) : s.Keeps (s.recognizeEdge c now) := by
  unfold State.recognizeEdge
  split
  · exact .refl s
  · refine (State.Keeps.refl s).thenIf fun _ => (s.settleJudge_keeps.trans (State.setCheck_keeps fun h => ?_)).trans
      (State.notifyIf_keeps ..)
    obtain ⟨-, h2⟩ := h
    exact ⟨satAdd_le .., h2⟩

theorem State.settleAdvance_keeps (s v : State) : s.Keeps (s.settleAdvance v) :=
  s.settleJudge_keeps.thenIf fun _ => State.emitBoundary_keeps ..

theorem State.moveEvidence_keeps (s : State) (post : Instant) : s.Keeps (s.moveEvidence post) := .of_att id

/-! ## The judgement of a second -/

theorem runCounts_le (cause : SecondCause) {good bad : Nat} :
    (runCounts cause good bad).1 ≤ Config.count16 ∧ (runCounts cause good bad).2 ≤ Config.count16 := by
  cases cause <;> simp [runCounts, satAdd, Config.count16]

/-- A judgement leaves TB, the servo and E as they are, and the counts in range (R34). -/
theorem State.judge_keeps {s : State} {du : DU} (hi : du.i = s.du.i) (hc : du.c = s.du.c)
    (hst : du.steering = s.du.steering) (he : du.e = s.du.e) (hg : du.goodRun ≤ Config.count16)
    (hb : du.badRun ≤ Config.count16) : s.Keeps { s with du := du } :=
  .of_time (fun h => by simpa only [State.timeOk, hi, hc, hst] using h) fun ⟨h, _, _⟩ => ⟨he ▸ h, hg, hb⟩

theorem State.latchMarker_keeps (s : State) : s.Keeps s.latchMarker := by
  have hearly (du : DU) (h : du = { s.du with receiver := .outside }) :
      s.Keeps { s with du := du.judgeEarly s.now s.clock.period } := by
    subst h
    exact State.judge_keeps rfl rfl rfl rfl (runCounts_le _).1 (runCounts_le _).2
  have hbad (du : DU) (h : du = { s.du with receiver := .outside }) (cause : SecondCause) :
      s.Keeps { s with du := du.judgeBad cause s.now s.clock.own s.clock.period } := by
    subst h
    exact State.judge_keeps rfl rfl rfl rfl (runCounts_le _).1 (runCounts_le _).2
  unfold State.latchMarker DU.judgeMarker
  dsimp only
  split
  · exact hearly _ rfl
  · split
    · exact hbad _ rfl _
    · exact State.judge_keeps rfl rfl rfl rfl (runCounts_le _).1 (runCounts_le _).2
    · exact hbad _ rfl _

/-! ## The counter moved -/

/-- The counter placed in its ranges, in an epoch that does not pass 65,535. -/
theorem State.placeCounter_keeps {s : State} {post : Instant} {frac epoch : Nat}
    (hs : post.sec < Config.secondsWrap) (hn : post.ns < Config.second) (hf : frac = s.tb.frac ∨ frac = 0)
    (he : s.tb.epoch ≤ Config.epochMax → epoch ≤ Config.epochMax) : s.Keeps (s.placeCounter post frac epoch) :=
  .of_time (fun ⟨_, _, h3, h4, h⟩ => ⟨hs, hn, by
    rcases hf with rfl | rfl
    · exact h3
    · exact Nat.two_pow_pos 32, he h4, h⟩) id

theorem State.afterMove_keeps (s : State) (pre post : Instant) (d : Int) : s.Keeps (s.afterMove pre post d) :=
  (s.moveEvidence_keeps post).thenIf fun _ => State.passTimers_keeps ..

theorem State.recordMove_keeps (s : State) (pre : Stamp) (cls : TraceClass) (theta : Int) (marker : Option Stamp)
    (body : ClockBody) : s.Keeps (s.recordMove pre cls theta marker body) := s.create_keeps ..

/-- R15 and R17: the counter is moved back only where an epoch can follow. -/
abbrev State.epochFollows (s : State) (d : Int) : Prop := ¬ (s.tb.epoch ≥ Config.epochMax ∧ d > 0)


theorem epochAfter_le {epoch : Nat} {d : Int} (h : ¬ (epoch ≥ Config.epochMax ∧ d > 0))
    (he : epoch ≤ Config.epochMax) : epochAfter epoch d ≤ Config.epochMax := by
  unfold epochAfter
  split <;> omega

theorem State.movedBy_place_keeps {s u : State} {d : Int} (hu : u.tb = s.tb) (h : s.epochFollows d) :
    u.Keeps (u.placeCounter (s.movedBy d).instant s.tb.frac (s.movedBy d).epoch) :=
  State.placeCounter_keeps (Instant.ofTotal_ranges _).1 (Instant.ofTotal_ranges _).2 (.inl (by rw [hu]))
    fun he => epochAfter_le h (hu ▸ he)

theorem State.applyStep_keeps (s : State) (cls : TraceClass) (sec : Second) (h : s.epochFollows sec.d) :
    s.Keeps (s.applyStep cls sec) :=
  ((State.movedBy_place_keeps rfl h).trans (State.recordMove_keeps ..)).trans (State.afterMove_keeps ..)

theorem State.applySet_keeps (s : State) (cls : TraceClass) (sec : Second) : s.Keeps (s.applySet cls sec) := by
  unfold State.applySet
  refine .ite (fun _ => ?_) fun h => ?_
  · exact ((s.abandonRunning_keeps _ _).trans (State.recordMove_keeps ..)).trans (State.moveEvidence_keeps ..)
  · exact (((s.abandonRunning_keeps _ _).trans (State.movedBy_place_keeps (by simp) h)).trans
      (State.recordMove_keeps ..)).trans (State.afterMove_keeps ..)

/-! ## The work of a second (R36) -/

theorem State.setDemand_keeps (s : State) (d : Option Demand) : s.Keeps { s with tb := { s.tb with demand := d } } :=
  .of_time id id

theorem State.moveTime_keeps (s : State) (cls : TraceClass) (sec : Second) (mv : Move)
    (h : mv = .step → s.epochFollows sec.d) : s.Keeps (s.moveTime cls sec mv) := by
  cases mv with
  | keep => exact .refl s
  | withdraw => exact s.setDemand_keeps _
  | hold => exact s.setDemand_keeps _
  | step => exact (s.setDemand_keeps _).trans (State.applyStep_keeps _ _ _ (h rfl))
  | set => exact (s.setDemand_keeps _).trans (State.applySet_keeps ..)

theorem State.stepMove_eq_step {s : State} {sec : Second} (h : s.stepMove sec = .step) : s.epochFollows sec.d := by
  unfold State.stepMove at h
  rintro ⟨he, hd⟩
  simp [he, hd] at h
  repeat' split at h
  all_goals contradiction

theorem State.moveOf_eq_step {s : State} {sec : Second} (h : s.moveOf sec = .step) : s.epochFollows sec.d := by
  unfold State.moveOf at h
  dsimp only at h
  split at h
  · contradiction
  · split at h
    · exact State.stepMove_eq_step h
    · split at h <;> contradiction

theorem State.ratesAfter_le (s : State) (sec : Second) (mv : Move) (hi : s.du.i.natAbs ≤ s.du.steering.limit)
    (hc : s.du.c.natAbs ≤ s.du.steering.limit) :
    (s.ratesAfter sec mv).1.natAbs ≤ s.du.steering.limit ∧ (s.ratesAfter sec mv).2.natAbs ≤ s.du.steering.limit := by
  have hs := servo_bounds s.du.steering s.du.i sec.theta hi
  unfold State.ratesAfter
  dsimp only
  split
  · split
    · exact ⟨Nat.zero_le _, Nat.zero_le _⟩
    · exact ⟨hs.1, by rw [Int.natAbs_neg]; exact hs.1⟩
    · exact hs
  · exact ⟨hi, hc⟩
  · exact ⟨hi, by rw [Int.natAbs_neg]; exact hi⟩
  · exact ⟨hi, by rw [Int.natAbs_neg]; exact hi⟩
  · exact ⟨hi, Nat.zero_le _⟩
  · exact ⟨hi, Nat.zero_le _⟩

theorem State.errorAfter_le (s : State) (sec : Second) (mv : Move) (he : s.du.e ≤ Config.errorMax) :
    s.errorAfter sec mv ≤ Config.errorMax := by
  unfold State.errorAfter
  dsimp only
  split
  · split
    · exact Nat.min_le_left ..
    · exact Nat.min_le_left ..
    · exact satAdd_le ..
  · split
    · exact satAdd_le ..
    · exact he
  · exact le_rfl
  · exact le_rfl
  · exact he
  · exact he

/-- DU after a second's work, with the INC that its C gives (R4, R6, R39 to R42). -/
theorem State.discipline_keeps (s : State) (sec : Second) (mv : Move) :
    s.Keeps (State.setInc { s with du := s.duAfter sec mv }) :=
  .of_time
    (fun ⟨h1, h2, h3, h4, _, h6, h7, h8, h9⟩ =>
      have hr := s.ratesAfter_le sec mv h8 h9
      ⟨h1, h2, h3, h4, rfl, h6, h7, hr.1, hr.2⟩)
    fun ⟨h1, h2, h3⟩ => ⟨s.errorAfter_le sec mv h1, h2, h3⟩

theorem State.stateChanged_keeps (s : State) (old : DState) (sec : Second) : s.Keeps (s.stateChanged old sec) :=
  (State.Keeps.refl s).thenIf fun _ => (s.createNow_keeps _).trans (State.notify_keeps ..)

theorem State.holdDemand_keeps (s : State) (newly : Bool) (sec : Second) : s.Keeps (s.holdDemand newly sec) :=
  (State.Keeps.refl s).thenIf fun _ =>
    (((s.notify_keeps .stepHeld).trans (State.handHeld_keeps _)).trans (State.createNow_keeps ..)).trans
      (.of_port ⟨[], rfl⟩)

theorem State.classChanged_keeps (s : State) (old : TraceClass) (now : Stamp) (cls : TraceClass) :
    s.Keeps (s.classChanged old now cls) :=
  (State.Keeps.refl s).thenIf fun _ => (s.create_keeps ..).trans (State.notify_keeps ..)

theorem State.adoptOffset_keeps (s : State) (sec : Second) : s.Keeps (s.adoptOffset sec) :=
  (State.Keeps.refl s).thenIf fun _ => (s.createNow_keeps _).trans (.of_time id id)

theorem State.handSecond_keeps (s : State) (servoRan : Bool) (sec : Second) : s.Keeps (s.handSecond servoRan sec) :=
  (s.handOver_keeps.thenIf fun _ => State.handServo_keeps ..).thenIf fun _ => State.handReference_keeps ..

theorem State.workOf_keeps (s : State) (sec : Second) : s.Keeps (s.workOf sec) := by
  refine (s.discipline_keeps sec (s.moveOf sec)).trans ((State.moveTime_keeps _ s.du.cls sec (s.moveOf sec) fun h => ?_).trans
    ((State.stateChanged_keeps _ s.du.state sec).trans ((State.holdDemand_keeps _ _ sec).trans
      ((State.classChanged_keeps _ s.du.cls _ _).trans ((State.adoptOffset_keeps _ sec).trans
        (State.handSecond_keeps _ _ sec))))))
  exact State.moveOf_eq_step (s := s) h

theorem State.actOn_keeps (s : State) (sec : Second) : s.Keeps (s.actOn sec) :=
  .ite (fun _ => (s.settleAdvance_keeps _).trans (State.workOf_keeps ..)) fun _ => s.workOf_keeps sec

theorem State.reading_keeps (s : State) : s.Keeps s.reading := .of_time id id

theorem State.takeAction_keeps (s : State) : s.Keeps s.takeAction := by
  unfold State.takeAction
  split
  · next sec rest _ =>
    have hdu : s.Keeps { s with du := { s.du with judged := rest } } := .of_time (fun h => h) (fun h => h)
    exact (hdu.trans (State.actOn_keeps _ _)).trans (State.reading_keeps _)
  · exact .refl s

theorem State.missingSecond_keeps (s : State) : s.Keeps s.missingSecond :=
  have hjudge (du : DU) (h : du = { s.du with
      present := false
      missingAt := some (s.clock.own + ownUnits Config.second)
      expected := s.du.expectNext
      goodRun := (runCounts .missing s.du.goodRun s.du.badRun).1
      badRun := (runCounts .missing s.du.goodRun s.du.badRun).2 }) (sec : Second) :
      s.Keeps (State.actOn { s with du := du } sec).reading := by
    subst h
    refine (State.Keeps.trans ?_ (State.actOn_keeps _ _)).trans (State.reading_keeps _)
    exact State.judge_keeps rfl rfl rfl rfl (runCounts_le _).1 (runCounts_le _).2
  hjudge _ rfl _

theorem State.closeActions_keeps (s : State) : s.Keeps s.closeActions :=
  State.Keeps.times (fun s => (State.Keeps.refl s).thenIf fun _ => s.takeAction_keeps) _ _

theorem State.acted_keeps (s : State) : s.Keeps s.acted :=
  (State.Keeps.ite (fun _ => s.closeActions_keeps) fun _ => .refl s).trans (State.reading_keeps _)

theorem State.holdoverSecond_keeps (s : State) : s.Keeps s.holdoverSecond := by
  have hdu (e : Nat) (he : e ≤ Config.errorMax) (n m : Nat) (cls : TraceClass) :
      s.Keeps { s with du := { s.du with holdCount := n, holdNext := m, e := e, cls := cls } } :=
    .of_time id fun ⟨_, h2, h3⟩ => ⟨he, h2, h3⟩
  unfold State.holdoverSecond
  dsimp only
  have ht {u : State} (hu : s.Keeps u) (old cls : TraceClass) (now : Stamp) :
      s.Keeps (u.classChanged old now cls).handOver :=
    (hu.trans (State.classChanged_keeps ..)).trans (State.handOver_keeps _)
  exact .ite (fun _ => ht (hdu _ (satAdd_le ..) _ _ _) _ _ _)
    fun _ => (ht (hdu _ (satAdd_le ..) _ _ _) _ _ _).trans (State.acted_keeps _)

theorem State.work_keeps (s : State) : s.Keeps s.work := by
  unfold State.work
  exact (s.closeActions_keeps.thenIf fun _ => State.missingSecond_keeps _).thenIf
    fun _ => State.holdoverSecond_keeps _

theorem State.done_keeps (s : State) : s.Keeps s.done := State.Keeps.ite (fun _ => s.work_keeps) fun _ => .refl s

theorem State.left_keeps (s : State) : s.Keeps s.left := s.done_keeps.trans (State.reading_keeps _)

theorem State.promise_keeps (s : State) (p : Promise) : s.Keeps (s.promise p) :=
  State.Keeps.ite (fun _ => .of_time id id) fun _ => .refl s

theorem State.keep_keeps {s : State} {k : State → State} (hk : ∀ v : State, v.Keeps (k v)) : s.Keeps (s.keep k) :=
  .ite (fun _ => s.done_keeps.trans (hk _)) fun _ => hk s

end Sys2Proof.Machine
end

section
/-! SUPPORT. Lines, releases and chains keep every invariant (chapters 3, 4, 7, 8). -/

namespace Sys2Proof.Machine

open Sys2Proof

/-! ## Lines (R50 to R62) -/

theorem Line.respond_ok {l : Line} (r : Response) (h : l.ok) (room : l.acks.length < Config.ackDepth) :
    (l.respond r).ok := by
  obtain ⟨hf, -, hc, hframe, htx⟩ := h
  refine ⟨hf, by simpa [Line.respond] using room, hc, hframe, fun hne => ⟨?_, by simp [Line.respond]⟩⟩
  by_cases hi : l.tx = .idle ∧ l.up = true ∧ l.flowDue = false
  · exact hi.2.1
  · have : l.tx ≠ .idle := by simpa [Line.respond, if_neg hi] using hne
    exact (htx this).1

theorem Line.choose_ok {l : Line} (hf : l.fifo.length ≤ Config.fifoDepth) (ha : l.acks.length ≤ Config.ackDepth)
    (hc : l.counters.ok) (hframe : l.frame.isSome = true → l.up = true) : l.choose.ok := by
  refine ⟨hf, ha, hc, hframe, fun hne => ?_⟩
  by_cases hgo : (l.up && !l.flowDue && !l.acks.isEmpty) = true
  · simp only [Bool.and_eq_true, Bool.not_eq_true', List.isEmpty_eq_false_iff] at hgo
    exact ⟨hgo.1.1, hgo.2⟩
  · exact absurd (by simp [Line.choose, hgo]) hne

theorem Line.linkUp_ok {l : Line} (h : l.ok) : l.linkUp.ok := by
  obtain ⟨hf, ha, hc, -, -⟩ := h
  exact ⟨hf, ha, hc, fun _ => rfl, fun hne => absurd rfl hne⟩

theorem Counters.abort_ok {c : Counters} (h : c.ok) : c.abort.ok := by
  obtain ⟨h1, h2, h3, h4, h5, h6, h7, -⟩ := h
  exact ⟨h1, h2, h3, h4, h5, h6, h7, satAdd_le ..⟩

theorem Line.linkDown_ok {l : Line} (why : LinkLoss) (h : l.ok) : (l.linkDown why).ok := by
  obtain ⟨hf, ha, hc, -, -⟩ := h
  refine ⟨hf, ha, ?_, fun hs => absurd hs (by simp [Line.linkDown]), fun hne => absurd rfl hne⟩
  unfold Line.linkDown
  dsimp only
  split
  · exact Counters.abort_ok hc
  · exact hc

theorem Line.begin_ok {l : Line} (now : Stamp) (cls : TraceClass) (hup : l.up = true) (h : l.ok) :
    (l.begin now cls).ok := by
  obtain ⟨hf, ha, hc, -, htx⟩ := h
  exact ⟨hf, ha, hc, fun _ => hup, htx⟩

theorem Line.frameOver_ok {l : Line} (how : FrameEnd) (h : l.ok) : (l.frameOver how).ok := by
  obtain ⟨hf, ha, hc, -, htx⟩ := h
  exact ⟨hf, ha, hc, fun hs => absurd hs (by simp [Line.frameOver]), htx⟩

theorem Counters.refuse_ok {c : Counters} (r : Refuse) (h : c.ok) : (c.refuse r).ok := by
  obtain ⟨h1, h2, h3, h4, h5, h6, h7, h8⟩ := h
  cases r with
  | closed => exact ⟨h1, satAdd_le .., h3, h4, h5, h6, h7, h8⟩
  | length => exact ⟨h1, h2, satAdd_le .., h4, h5, h6, h7, h8⟩
  | crc => exact ⟨h1, h2, h3, satAdd_le .., h5, h6, h7, h8⟩
  | kind => exact ⟨h1, h2, h3, h4, satAdd_le .., h6, h7, h8⟩
  | group => exact ⟨h1, h2, h3, h4, h5, satAdd_le .., h7, h8⟩
  | full => exact ⟨h1, h2, h3, h4, h5, h6, satAdd_le .., h8⟩

theorem Line.refuse_ok {l : Line} (tag : Nat) (r : Refuse) (h : l.ok) : (l.refuse tag r).ok := by
  have hc : Line.ok { l with counters := l.counters.refuse r } := by
    obtain ⟨hf, ha, hc, hr⟩ := h
    exact ⟨hf, ha, Counters.refuse_ok r hc, hr⟩
  unfold Line.refuse
  dsimp only
  split
  · next room => exact Line.respond_ok _ hc room
  · exact hc

theorem Line.accept_ok {l : Line} (e : FifoEntry) (h : l.ok) (room : l.fifo.length < Config.fifoDepth) :
    (l.accept e).ok := by
  obtain ⟨hf, ha, ⟨-, hc⟩, hr⟩ := h
  exact ⟨by simpa [Line.accept] using room, ha, ⟨satAdd_le .., hc⟩, hr⟩

theorem Line.powerOn_ok : Line.powerOn.ok :=
  ⟨Nat.zero_le _, Nat.zero_le _, Counters.zero_ok, fun h => absurd h (by simp [Line.powerOn]), fun h => absurd rfl h⟩

theorem Line.reset_ok (l : Line) (fill high low : Nat) : (l.reset fill high low).ok := Line.powerOn_ok

theorem Line.room_of_refusal {l : Line} {mark : FrameMark} {data : List Byte} {malformed : Bool} {how : FrameEnd}
    (h : l.refusal mark data malformed how = none) : l.fifo.length < Config.fifoDepth := by
  by_contra hfull
  have hroom : Config.fifoDepth ≤ l.fifo.length := not_lt.1 hfull
  simp only [Line.refusal, hroom, if_true] at h
  repeat' split at h
  all_goals cases h

theorem State.endFrame_keeps (s : State) (line : Fin 4) (mark : FrameMark) (data : List Byte) (malformed : Bool)
    (how : FrameEnd) : s.Keeps (s.endFrame line mark data malformed how) := by
  unfold State.endFrame
  dsimp only
  split
  · exact State.setLine_keeps fun h => Line.refuse_ok _ _ (Line.frameOver_ok how h)
  · next hr =>
    refine ((State.setLine_keeps fun h => ?_).trans (State.flowLine_keeps _ line)).trans (State.notifyIf_keeps ..)
    exact Line.accept_ok _ (Line.frameOver_ok how h) (Line.room_of_refusal hr)
  · exact .refl s

/-! ## Numbers of SQM that a release's parts leave as they are -/

/-- The numbers of SQM: the counter, whether it is exhausted, and the tie pointer. -/
abbrev State.sameNumbers (s t : State) : Prop :=
  t.sqm.next = s.sqm.next ∧ t.sqm.exhausted = s.sqm.exhausted ∧ t.sqm.tie = s.sqm.tie

theorem State.sameNumbers.trans {s t u : State} (h : s.sameNumbers t) (k : t.sameNumbers u) : s.sameNumbers u :=
  ⟨k.1.trans h.1, k.2.1.trans h.2.1, k.2.2.trans h.2.2⟩

theorem State.sameNumbers.of_sqm {s t : State} (h : t.sqm = s.sqm) : s.sameNumbers t := by simp [State.sameNumbers, h]

theorem State.armWindow_numbers (s : State) (g : Fin 64) : s.sameNumbers (s.armWindow g) := by
  unfold State.armWindow
  split <;> exact ⟨rfl, rfl, rfl⟩

theorem State.releaseExtend_numbers (s : State) (group : Nat) (t : Stamp) :
    s.sameNumbers (s.releaseExtend group t).1 := by
  have hx (g : Fin 64) : s.sameNumbers (s.extendGroup g t) := by
    unfold State.extendGroup
    dsimp only
    split <;> exact .trans ⟨rfl, rfl, rfl⟩ (State.armWindow_numbers ..)
  unfold State.releaseExtend
  split
  · exact ⟨rfl, rfl, rfl⟩
  · dsimp only
    split
    · exact hx _
    · exact ⟨rfl, rfl, rfl⟩

theorem State.releaseAbandon_numbers (s : State) (group : Nat) : s.sameNumbers (s.releaseAbandon group).1 := by
  unfold State.releaseAbandon
  split
  · exact ⟨rfl, rfl, rfl⟩
  · dsimp only
    split <;> exact ⟨rfl, rfl, rfl⟩

theorem State.engineBody_numbers (s : State) (e : EngineEntry) : s.sameNumbers (s.engineBody e).1 := by
  unfold State.engineBody
  split
  · exact ⟨rfl, rfl, rfl⟩
  · exact s.releaseExtend_numbers ..
  · exact s.releaseAbandon_numbers ..

theorem State.drawWindow_numbers (s : State) (g : Fin 64) (epoch : Nat) :
    s.sameNumbers (s.drawWindow g epoch).1 := by
  unfold State.drawWindow
  dsimp only
  split
  all_goals
    split
    all_goals exact ⟨rfl, rfl, rfl⟩

theorem State.internalBody_numbers (s : State) (e : Internal) (seq : Nat) :
    s.sameNumbers (s.internalBody e seq).1 := by
  unfold State.internalBody
  split
  · exact s.drawWindow_numbers ..
  · exact ⟨rfl, rfl, rfl⟩
  · exact .of_sqm (by simp)
  · split
    · exact .of_sqm (by simp)
    · exact ⟨rfl, rfl, rfl⟩
  · exact ⟨rfl, rfl, rfl⟩

/-! ## A release (R81) -/

/-- The head of a source can be released: a number is left, PST has room, and so has a line's ack queue. -/
def State.hasRoom (s : State) (src : Source) : Prop :=
  s.sqm.exhausted = false ∧ s.pst.records.length < Config.storeDepth
    ∧ ∀ l, src = .line l → (s.line l).acks.length < Config.ackDepth

theorem State.hasRoom_of_releasable {s : State} {src : Source} (h : s.releasable src = true) : s.hasRoom src := by
  obtain ⟨t, ht⟩ := State.headStamp_of_releasable h
  simp only [State.releasable, ht, Bool.and_eq_true, Bool.not_eq_true', decide_eq_true_eq] at h
  obtain ⟨⟨⟨hx, hp⟩, hl⟩, -⟩ := h
  refine ⟨hx, hp, ?_⟩
  rintro l rfl
  exact of_decide_eq_true hl

theorem State.useNumber_keepsBlocks (s : State) : s.KeepsBlocks s.useNumber where
  time := id
  bound := id
  lines := id
  agenda := by
    intro h
    unfold State.useNumber SQM.useNumber
    split <;> exact h
  groups := id
  evidence := id
  chains := id
  pending := rfl
  wire := ⟨[], rfl⟩

theorem State.append_keepsBlocks (s : State) (tie : Nat) (r : Record) : s.KeepsBlocks (s.append tie r) :=
  .trans (t := { s with sqm := { s.sqm with tie := tie } }) ⟨id, id, id, id, id, id, id, rfl, [], rfl⟩
    (State.setRecords_keepsBlocks _ _)

/-- PST after a release: one more record, under the number that the release used (R80, R160). -/
theorem State.storeOk_of_release {s t : State} {r : Record} (room : s.sqm.exhausted = false ∧
      s.pst.records.length < Config.storeDepth) (hp : t.pst.records = s.pst.records ++ [r])
    (hpl : t.pst.placed = s.pst.placed) (hr : r.seq = s.sqm.next) (hn : t.sqm.next = s.sqm.useNumber.next)
    (hx : t.sqm.exhausted = s.sqm.useNumber.exhausted) (htie : s.sqm.tie ≤ 4 → t.sqm.tie ≤ 4) (h : s.storeOk) :
    t.storeOk := by
  obtain ⟨-, hplaced, h1, h2, ht, hnum⟩ := h
  have hnext := SQM.useNumber_next h1 h2
  have hend : t.sqm.numberEnd = s.sqm.next + 1 := by
    rw [← SQM.useNumber_numberEnd room.1]
    simp only [SQM.numberEnd, hn, hx]
  have hend0 : s.sqm.numberEnd = s.sqm.next := by simp [SQM.numberEnd, room.1]
  refine ⟨by rw [hp]; simpa using room.2, by rw [hp, hpl]; simp; omega, hn ▸ hnext.1, hn ▸ hnext.2, htie ht, ?_⟩
  rw [hp, hend]
  exact numbered_append (hend0 ▸ hnum) hr

theorem State.tieAfter_le (s : State) (src : Source) (t : Stamp) (h : s.sqm.tie ≤ 4) : s.tieAfter src t ≤ 4 := by
  unfold State.tieAfter
  split
  · omega
  · exact h

theorem State.append_sqm (s : State) (tie : Nat) (r : Record) :
    (s.append tie r).sqm = { s.sqm with tie := tie } := by
  simp [State.append]

@[simp] theorem State.flowAll_line (s : State) (l : Fin 4) :
    s.flowAll.line l = (s.line l).evalFlow s.pst.records.length s.pst.params.high s.pst.params.low :=
  Quad.get_map _ _ _

theorem State.setRecords_line (s : State) (rs : List Record) (l : Fin 4) :
    (s.setRecords rs).line l = (s.line l).evalFlow rs.length s.pst.params.high s.pst.params.low := by
  simp only [State.setRecords, State.line, State.notifyIf_same]
  exact Quad.get_map _ _ _

theorem State.append_line (s : State) (tie : Nat) (r : Record) (l : Fin 4) :
    (s.append tie r).line l
      = (s.line l).evalFlow (s.pst.records ++ [r]).length s.pst.params.high s.pst.params.low :=
  State.setRecords_line _ _ _

theorem State.releaseLine_keeps {s : State} {l : Fin 4} {e : FifoEntry} {rest : List FifoEntry}
    (room : s.hasRoom (.line l)) (hl : (s.line l).fifo = e :: rest) : s.Keeps (s.releaseLine l e rest) := by
  obtain ⟨hx, hp, hacks⟩ := room
  have hline (t : State) (ht : t.lines = s.lines) : t.line l = s.line l := by simp [State.line, ht]
  refine ⟨?_, ?_⟩
  · unfold State.releaseLine
    dsimp only
    refine s.useNumber_keepsBlocks.trans ((State.phaseTag_keeps _ e.group).toKeepsBlocks.trans (.trans
      (State.Keeps.toKeepsBlocks (State.setLine_keeps fun h => ?_)) (.trans (State.append_keepsBlocks _ _ _)
        (State.Keeps.toKeepsBlocks (State.setLine_keeps fun h => Line.respond_ok _ h ?_)))))
    · rw [hline _ (by simp)] at h ⊢
      obtain ⟨hf, hr⟩ := h
      rw [hl, List.length_cons] at hf
      exact ⟨Nat.le_of_succ_le hf, hr⟩
    · rw [State.append_line]
      simpa [Line.evalFlow, hline] using hacks l rfl
  · intro h
    refine State.storeOk_of_release (r := e.record l s.sqm.next (s.useNumber.phaseTag e.group).2) ⟨hx, hp⟩
      (by simp [State.releaseLine]) (by simp [State.releaseLine]) rfl ?_ ?_ (fun ht => ?_) h
    · simp [State.releaseLine, State.append_sqm, State.useNumber]
    · simp [State.releaseLine, State.append_sqm, State.useNumber]
    · simpa [State.releaseLine, State.append_sqm] using s.tieAfter_le _ _ ht

theorem State.writeBack_keeps (s : State) (e : EngineEntry) (r : Record) : s.Keeps (s.writeBack e r) :=
  (State.Keeps.refl s).thenIf fun _ => (s.post_keeps _).trans (.of_chains id)

theorem State.engineBody_keeps (s : State) (e : EngineEntry) : s.Keeps (s.engineBody e).1 := by
  unfold State.engineBody
  split
  · exact .refl s
  · exact s.releaseExtend_keeps ..
  · exact s.releaseAbandon_keeps ..

theorem State.writeBack_sqm (s : State) (e : EngineEntry) (r : Record) : (s.writeBack e r).sqm = s.sqm := by simp

theorem State.releaseEngine_keeps {s : State} {e : EngineEntry} {rest : List EngineEntry}
    (room : s.hasRoom .engine) (hf : s.evt.fifo = e :: rest) : s.Keeps (s.releaseEngine e rest) := by
  obtain ⟨hx, hp, -⟩ := room
  have hnum := State.engineBody_numbers s.useNumber e
  refine ⟨?_, ?_⟩
  · unfold State.releaseEngine
    dsimp only
    refine s.useNumber_keepsBlocks.trans ((State.engineBody_keeps _ e).toKeepsBlocks.trans
      ((State.phaseTag_keeps _ e.group).toKeepsBlocks.trans (.trans
        (State.Keeps.toKeepsBlocks (.of_chains fun h => ?_)) (.trans (State.append_keepsBlocks _ _ _)
          (State.writeBack_keeps _ _ _).toKeepsBlocks))))
    obtain ⟨h1, h2, h3, h4, h5⟩ := h
    have hevt : ((s.useNumber.engineBody e).1.phaseTag e.group).1.evt = s.evt := by simp
    rw [hevt, hf, List.length_cons] at h5
    exact ⟨h1, h2, h3, h4, Nat.le_of_succ_le h5⟩
  · intro h
    refine State.storeOk_of_release
      (r := e.record s.sqm.next ((s.useNumber.engineBody e).1.phaseTag e.group).2 (s.useNumber.engineBody e).2)
      ⟨hx, hp⟩ (by simp [State.releaseEngine]) (by simp [State.releaseEngine]) rfl ?_ ?_ (fun ht => ?_) h
    · simp only [State.releaseEngine, State.writeBack_sqm, State.append_sqm, State.phaseTag_same]
      exact hnum.1
    · simp only [State.releaseEngine, State.writeBack_sqm, State.append_sqm, State.phaseTag_same]
      exact hnum.2.1
    · simpa only [State.releaseEngine, State.writeBack_sqm, State.append_sqm] using s.tieAfter_le _ _ ht

theorem State.internalBody_keeps (s : State) (e : Internal) (seq : Nat) : s.Keeps (s.internalBody e seq).1 := by
  unfold State.internalBody
  split
  · exact s.drawWindow_keeps ..
  · exact .of_att id
  · exact s.releaseGroup_keeps ..
  · split
    · exact s.releaseGroup_keeps ..
    · exact .refl s
  · exact .refl s

theorem State.completeScopes_keeps (s : State) (body : Body) : s.Keeps (s.completeScopes body) := by
  have h (t : State) (p : PRT) : t.Keeps (({ t with prt := p } : State).notify .resetDone) :=
    .trans (.of_port ⟨[], rfl⟩) (State.notify_keeps ..)
  unfold State.completeScopes
  dsimp only
  exact ((State.Keeps.refl s).thenIf fun _ => h s _).thenIf fun _ => h _ _

theorem SQM.agendaOk_tail {q : SQM} {e : Internal} {rest : List Internal} (h : q.agendaOk)
    (hq : q.agenda = e :: rest) : SQM.agendaOk { q with agenda := rest } := by
  obtain ⟨h1, h2, h3⟩ := h
  rw [hq] at h1 h2 h3
  exact ⟨h1.of_cons, h2.of_cons, fun w hw => h3 w (List.mem_cons_of_mem e hw)⟩

theorem State.releaseInternal_keeps {s : State} {e : Internal} {rest : List Internal} (room : s.hasRoom .internal)
    (ha : s.sqm.agenda = e :: rest) : s.Keeps (s.releaseInternal e rest) := by
  obtain ⟨hx, hp, -⟩ := room
  have hq : s.useNumber.sqm.agenda = e :: rest := by
    unfold State.useNumber SQM.useNumber
    split <;> exact ha
  have hnum := State.internalBody_numbers
    { s.useNumber with sqm := { s.useNumber.sqm with agenda := rest } } e s.sqm.next
  refine ⟨?_, ?_⟩
  · unfold State.releaseInternal
    dsimp only
    exact s.useNumber_keepsBlocks.trans (.trans
      (State.Keeps.toKeepsBlocks (.of_agenda (created := s.useNumber.sqm.created) fun h => SQM.agendaOk_tail h hq))
      ((State.internalBody_keeps _ e _).toKeepsBlocks.trans ((State.phaseTag_keeps _ e.group).toKeepsBlocks.trans
        (.trans (State.append_keepsBlocks _ _ _) (State.completeScopes_keeps _ _).toKeepsBlocks))))
  · intro h
    let p := State.internalBody { s.useNumber with sqm := { s.useNumber.sqm with agenda := rest } } e s.sqm.next
    refine State.storeOk_of_release (r := e.record s.sqm.next (p.1.phaseTag e.group).2 p.2) ⟨hx, hp⟩
      (by simp [State.releaseInternal, p]) (by simp [State.releaseInternal]) rfl ?_ ?_ (fun ht => ?_) h
    · simp only [State.releaseInternal, State.completeScopes_same, State.append_sqm, State.phaseTag_same]
      exact hnum.1
    · simp only [State.releaseInternal, State.completeScopes_same, State.append_sqm, State.phaseTag_same]
      exact hnum.2.1
    · simpa only [State.releaseInternal, State.completeScopes_same, State.append_sqm] using ht

theorem State.releaseHead_keeps {s : State} {src : Source} (room : s.hasRoom src) : s.Keeps (s.releaseHead src) := by
  cases src with
  | line l =>
    cases h : (s.line l).fifo with
    | nil => simpa [State.releaseHead, h] using State.Keeps.refl s
    | cons e rest => simpa [State.releaseHead, h] using State.releaseLine_keeps room h
  | engine =>
    cases h : s.evt.fifo with
    | nil => simpa [State.releaseHead, h] using State.Keeps.refl s
    | cons e rest => simpa [State.releaseHead, h] using State.releaseEngine_keeps room h
  | internal =>
    cases h : s.sqm.agenda with
    | nil => simpa [State.releaseHead, h] using State.Keeps.refl s
    | cons e rest => simpa [State.releaseHead, h] using State.releaseInternal_keeps room h

/-- The readings of `v` under which a head is released go no further than its record. -/
theorem State.releaseUnder_keeps {s : State} (v : State) {src : Source} (room : s.hasRoom src) :
    s.Keeps (s.releaseUnder v src) := by
  have h := State.releaseHead_keeps (s := { s with tb := v.tb, du := v.du }) (src := src) room
  exact ⟨⟨by simp [State.releaseUnder, State.timeOk], by simp [State.releaseUnder, State.boundOk], h.lines, h.agenda,
    h.groups, h.evidence, h.chains, h.pending, h.wire⟩, h.store⟩

theorem State.releaseFrom_keeps {s : State} {src : Source} (room : s.hasRoom src) : s.Keeps (s.releaseFrom src) := by
  have h := State.releaseUnder_keeps (s.releaseReading src) room
  unfold State.releaseFrom
  exact .ite (fun _ => (h.trans (State.reading_keeps _)).trans (State.promise_keeps _ _)) fun _ => h

theorem State.release_keeps (s : State) : s.Keeps s.release := by
  unfold State.release
  split
  · next src h =>
    have hr := State.hasRoom_of_releasable (List.find?_some h)
    exact State.releaseFrom_keeps hr
  · exact .refl s

theorem State.releaseNext_keeps (s : State) : s.Keeps s.releaseNext :=
  (State.Keeps.trans
    ((State.Keeps.refl s).thenIf fun _ => (s.settleAdvance_keeps _).trans (State.promise_keeps _ _))
    (State.Keeps.ite (fun _ => State.done_keeps _) fun _ => .refl _)).trans (State.release_keeps _)

end Sys2Proof.Machine
end

section
/-! SUPPORT. The chain engine keeps every invariant (chapters 7 and 8): contexts, walks, blocks, faults. -/

namespace Sys2Proof.Machine

open Sys2Proof

/-! ## Contexts (R140) -/

/-- An ACTIVE context is sound exactly with no park kind and no fault cause. -/
theorem ChainCtx.ok_of_active {x : ChainCtx} (ha : x.state = .active) : x.ok ↔ x.park = none ∧ x.fault = none := by
  simp [ChainCtx.ok, ha]

/-- A context that stands nowhere, with nothing remembered, no park and no fault, is sound. -/
theorem ChainCtx.ok_of_rest {x : ChainCtx} (hs : x.state = .inactive ∨ x.state = .stopping) (hp : x.park = none)
    (hc : x.fault = none) (hr : x.remembered = false) (hw : x.walk = .none) : x.ok := by
  obtain hs | hs := hs
  all_goals simp [ChainCtx.ok, hs, hp, hc, hr, hw]

theorem State.setCtx_keeps {s : State} {c : Chain} {x : ChainCtx} (h : (s.ctx c).ok → x.ok)
    (hc : c = .control → x.state = .stopping → (s.ctx c).state = .stopping) : s.Keeps (s.setCtx c x) := by
  cases c with
  | control =>
    refine .of_chains fun hs => ?_
    obtain ⟨h1, h2, h3, h4, h5⟩ := hs
    exact ⟨h h1, h2, h3, fun hx => h4 (hc rfl hx), h5⟩
  | event =>
    refine .of_chains fun hs => ?_
    obtain ⟨h1, h2, h3, h4, h5⟩ := hs
    exact ⟨h1, h h2, h3, h4, h5⟩
  | capture =>
    refine .of_chains fun hs => ?_
    obtain ⟨h1, h2, h3, h4, h5⟩ := hs
    exact ⟨h1, h2, h h3, h4, h5⟩

/-- An ACTIVE chain that stays ACTIVE may walk anywhere. -/
theorem State.setActive_keeps {s : State} {c : Chain} {x : ChainCtx} (ha : (s.ctx c).state = .active)
    (hx : x.state = .active) (hp : x.park = (s.ctx c).park) (hf : x.fault = (s.ctx c).fault) :
    s.Keeps (s.setCtx c x) := by
  refine State.setCtx_keeps (fun h => ?_) fun _ h => absurd (hx.symm.trans h) (by decide)
  rw [ChainCtx.ok_of_active ha] at h
  rw [ChainCtx.ok_of_active hx, hp, hf]
  exact h

/-- A chain that goes to rest is sound; the control chain never rests in STOPPING. -/
theorem State.setRest_keeps {s : State} {c : Chain} {x : ChainCtx} (h : (s.ctx c).ok → x.ok)
    (hx : x.state = .inactive) : s.Keeps (s.setCtx c x) :=
  State.setCtx_keeps h fun _ h => absurd (hx.symm.trans h) (by decide)

theorem ChainCtx.stopped_ok (x : ChainCtx) : x.stopped.ok :=
  ChainCtx.ok_of_rest (.inl rfl) rfl rfl rfl rfl

theorem State.setStopped_keeps (s : State) (c : Chain) (x : ChainCtx) : s.Keeps (s.setCtx c x.stopped) :=
  State.setRest_keeps (fun _ => x.stopped_ok) rfl

/-! ## The walk (R141, R145, R146, R147) -/

theorem State.enterBlock_keeps {s : State} {c : Chain} (a : BitVec 64) (ha : (s.ctx c).state = .active) :
    s.Keeps (s.enterBlock c a) := State.setActive_keeps ha ha rfl rfl

theorem State.readNext_keeps {s : State} {c : Chain} (ha : (s.ctx c).state = .active) : s.Keeps (s.readNext c) :=
  State.setActive_keeps ha ha rfl rfl

theorem State.park_keeps {s : State} {c : Chain} (k : ParkKind) (ha : (s.ctx c).state = .active) :
    s.Keeps (s.park c k) := by
  obtain ⟨-, heq⟩ | ⟨hr, heq⟩ := State.park_cases s c k
  · rw [heq]; exact State.setActive_keeps ha ha rfl rfl
  · rw [heq]
    refine .trans (State.setCtx_keeps (fun h => ?_) fun _ h => ChainState.noConfusion h) (State.notify_keeps _ _)
    rw [ChainCtx.ok_of_active ha] at h
    simp [ChainCtx.ok, hr, h.2]

theorem State.enterFault_keeps (s : State) (c : Chain) (cause : FaultCause) (a : BitVec 64) :
    s.Keeps (s.enterFault c cause a) :=
  .trans (State.setCtx_keeps (fun _ => by simp [ChainCtx.ok]) fun _ h => ChainState.noConfusion h) (State.notify_keeps _ _)

theorem State.followNext_keeps {s : State} {c : Chain} (a : BitVec 64) (ha : (s.ctx c).state = .active) :
    s.Keeps (s.followNext c a) := by
  obtain ⟨-, heq⟩ | ⟨-, -, heq⟩ | ⟨-, -, heq⟩ := State.followNext_cases s c a
  · rw [heq]; exact State.park_keeps _ ha
  · rw [heq]; exact s.enterFault_keeps ..
  · rw [heq]; exact State.enterBlock_keeps a ha

/-! ## The control chain's blocks and slots (R138, R143, R148 to R150) -/

theorem State.finishControl_keeps (s : State) (bad : Bool) (cause : CloseCause) (state : Nat) (leave : Bool) :
    s.Keeps (s.finishControl bad cause state leave) := s.post_keeps _

@[simp] theorem State.finishControl_ctx (s : State) (bad : Bool) (cause : CloseCause) (state : Nat) (leave : Bool)
    (c : Chain) : (s.finishControl bad cause state leave).ctx c = s.ctx c := by cases c <;> rfl

theorem State.countControl_keeps (s : State) : s.Keeps s.countControl := .of_chains id

theorem State.advanceControl_keeps {s : State} (off len : Nat) (ha : s.ctl.ctx.state = .active) :
    s.Keeps (s.advanceControl off len) := by
  refine .ite (fun _ => ?_) fun _ => State.setActive_keeps ha ha rfl rfl
  exact (s.finishControl_keeps ..).trans (State.setActive_keeps ha ha rfl rfl)

theorem State.stopAtSlot_keeps {s : State} (off len : Nat) (ha : s.ctl.ctx.state = .active) :
    s.Keeps (s.stopAtSlot off len) := by
  unfold State.stopAtSlot
  refine .trans (.ite (fun _ => s.finishControl_keeps ..) fun _ => s.finishControl_keeps ..)
    (State.setRest_keeps (fun h => ?_) rfl)
  have hctx : (if off + len ≥ s.ctl.block.used then s.finishControl false .none blockDone false
      else s.finishControl false .stop blockPartial false).ctx .control = s.ctl.ctx := by split <;> rfl
  rw [hctx, ChainCtx.ok_of_active ha] at h
  exact ChainCtx.ok_of_rest (.inl rfl) h.1 h.2 rfl rfl

theorem State.afterSlot_keeps {s : State} (off len : Nat) (ha : s.ctl.ctx.state = .active) :
    s.Keeps (s.afterSlot off len) := by
  unfold State.afterSlot
  split
  · exact State.stopAtSlot_keeps off len ha
  · exact State.advanceControl_keeps off len ha

/-- A slot that may be taken is one of an ACTIVE chain. -/
theorem State.active_of_atSlot {s : State} {off : Nat} {h : SlotHead} (hs : s.atSlot = some (off, h)) :
    s.ctl.ctx.state = .active := by
  have hw (hw : s.walking .control = true) : s.ctl.ctx.state = .active := by
    simp only [State.walking, Bool.and_eq_true, beq_iff_eq] at hw
    exact hw.1
  unfold State.atSlot at hs
  split at hs
  · exact hw (by by_contra hn; simp [hn] at hs)
  · exact hw (by by_contra hn; simp [hn] at hs)
  · exact nomatch hs

theorem State.refuseControl_keeps {s : State} (off : Nat) (h : SlotHead) (st : SlotStatus)
    (ha : s.ctl.ctx.state = .active) : s.Keeps (s.refuseControl off h st) :=
  ((s.post_keeps _).trans (State.countControl_keeps _)).trans (State.afterSlot_keeps _ _ ha)

theorem State.settleControl_keeps (s : State) : s.Keeps s.settleControl := by
  unfold State.settleControl
  split
  · next off h st hr =>
    refine State.refuseControl_keeps off h st ?_
    unfold State.controlRefusal at hr
    split at hr
    · next hat => exact State.active_of_atSlot hat
    · exact nomatch hr
  · exact .refl s

/-! ## The event chain's blocks and slots (R144, R148 to R150, R157) -/

theorem State.finishEvent_keeps (s : State) : s.Keeps s.finishEvent := by
  unfold State.finishEvent
  exact .trans (.of_chains (by exact id)) (State.post_keeps _ _)

theorem State.mapCurrent_keeps (s : State) (f : EvtBlock → EvtBlock) : s.Keeps (s.mapCurrent f) := .of_chains id

theorem State.leaveEvent_keeps {s : State} (ha : s.evt.ctx.state = .active) : s.Keeps s.leaveEvent :=
  ((s.mapCurrent_keeps _).trans (State.finishEvent_keeps _)).trans (State.readNext_keeps ha)

theorem State.advanceEvent_keeps {s : State} (off len : Nat) (ha : s.evt.ctx.state = .active) :
    s.Keeps (s.advanceEvent off len) :=
  .ite (fun _ => State.leaveEvent_keeps ha) fun _ => State.setActive_keeps ha ha rfl rfl

theorem State.finishStop_keeps {s : State} (ha : s.evt.ctx.state = .stopping) : s.Keeps s.finishStop := by
  unfold State.finishStop
  refine .trans (.trans (.of_chains (by exact id)) (State.post_keeps _ _)) (State.setRest_keeps (fun h => ?_) rfl)
  have hok : s.evt.ctx.ok := h
  simp only [ChainCtx.ok, ha, reduceCtorEq, iff_false, Bool.not_eq_true, Option.isSome_eq_false_iff,
    Option.isNone_iff_eq_none, imp_false] at hok
  exact ChainCtx.ok_of_rest (.inl rfl) hok.1 hok.2.1 hok.2.2.1 rfl

theorem State.active_of_mayTakeEvent {s : State} (h : s.mayTakeEvent = true) :
    s.evt.ctx.state = .active ∧ s.evt.fifo.length < Config.engineDepth := by
  simp only [State.mayTakeEvent, Bool.and_eq_true, beq_iff_eq, decide_eq_true_eq] at h
  exact ⟨h.1.1.1.1, h.1.1.1.2⟩

theorem State.refuseEvent_keeps {s : State} (off : Nat) (h : SlotHead) (st : SlotStatus)
    (ha : s.evt.ctx.state = .active) : s.Keeps (s.refuseEvent off h st) :=
  ((s.post_keeps _).trans (State.mapCurrent_keeps _ _)).trans (State.advanceEvent_keeps _ _ ha)

theorem State.settleEvent_keeps (s : State) : s.Keeps s.settleEvent := by
  unfold State.settleEvent
  split
  · next off h st hr =>
    refine State.refuseEvent_keeps off h st ?_
    unfold State.eventRefusal at hr
    split at hr
    · split at hr
      · next hm => exact (State.active_of_mayTakeEvent (Bool.and_eq_true_iff.mp hm).2).1
      · exact nomatch hr
    · exact nomatch hr
  · exact .refl s

/-! ## The capture chain (R167, R168) -/

theorem State.closeBlock_keeps (s : State) (b : OpenBlock) (cause : CloseCause) : s.Keeps (s.closeBlock b cause) := by
  have h : s.Keeps { s with
      pst := { s.pst with block := none, flushAt := none }
      cap := { s.cap with closing := some { notify := b.notify } } } :=
    .trans (.of_pst (pst := { s.pst with block := none, flushAt := none }) id) (.of_chains (by exact id))
  exact h.trans (State.post_keeps _ _)

theorem State.flush_keeps (s : State) : s.Keeps s.flush := by
  unfold State.flush
  split
  · exact .ite (fun _ => s.closeBlock_keeps ..) fun _ => .refl s
  · exact .refl s

/-! ## Failed accesses (R147, R164, R170, R182) -/

theorem State.readFault_keeps (s : State) (c : Chain) : s.Keeps (s.readFault c) := by
  unfold State.readFault
  dsimp only
  exact .trans (.ite (fun _ => (s.mapCurrent_keeps _).trans (State.finishEvent_keeps _)) fun _ => .refl s)
    (State.enterFault_keeps _ _ _ _)

theorem State.dropWrites_keeps (s : State) (c : Chain) : s.Keeps (s.dropWrites c) := .of_port ⟨[], rfl⟩

/-- PST's records stay, unplaced, and the open block is gone. -/
theorem State.unplace_keeps (s : State) :
    s.Keeps { s with pst := { s.pst with placed := 0, block := none, flushAt := none } } := by
  refine .of_pst fun h => ?_
  obtain ⟨h1, -, hr⟩ := h
  exact ⟨h1, Nat.zero_le _, hr⟩

theorem State.writeFault_keeps (s : State) (c : Chain) : s.Keeps (s.writeFault c) := by
  unfold State.writeFault
  dsimp only
  refine (s.dropWrites_keeps c).trans ?_
  generalize s.dropWrites c = t
  split
  · exact t.enterFault_keeps ..
  · refine .trans (.of_chains fun h => ?_) (State.enterFault_keeps _ _ _ _)
    obtain ⟨h1, h2, h3, h4, h5⟩ := h
    exact ⟨h1, h2, h3, h4, by simpa using h5⟩
  · have hs : t.Keeps { t with
        pst := { t.pst with placed := 0, block := none, flushAt := none }, cap := { t.cap with closing := none } } :=
      t.unplace_keeps.trans (.of_chains id)
    exact .ite (fun _ => hs) fun _ => hs.trans (State.enterFault_keeps _ _ _ _)

theorem State.failWrites_keeps (s : State) : s.Keeps s.failWrites :=
  .ite (fun _ => .foldl (fun t c => .ite (fun _ => t.writeFault_keeps c) fun _ => .refl t) _ s) fun _ => .refl s

theorem State.failReads_keeps (old s : State) : s.Keeps (old.failReads s) :=
  .ite (fun _ => .refl s) fun _ =>
    .foldl (fun t c => .ite (fun _ => t.readFault_keeps c) fun _ => .refl t) _ s

theorem State.busCheck_keeps (old s : State) : s.Keeps (old.busCheck s) :=
  s.failWrites_keeps.trans (State.failReads_keeps _ _)

/-! ## Scopes (R121, R158, R173) -/

theorem ChainCtx.reset_ok (x : ChainCtx) : x.reset.ok :=
  ChainCtx.ok_of_rest (.inl rfl) rfl rfl rfl rfl

theorem State.discardRecords_keeps (s : State) : s.Keeps s.discardRecords := by
  unfold State.discardRecords
  split
  · exact s.left_keeps.trans (State.createNow_keeps _ _)
  · exact .refl s

/-- A PST that is emptied with nothing placed stays sound. -/
theorem State.emptied_keeps {s : State} (hp : s.pst.placed = 0) : s.Keeps (s.setRecords []) := by
  refine ⟨s.setRecords_keepsBlocks [], fun h => ?_⟩
  obtain ⟨-, -, h1, h2, h3, -⟩ := h
  simp only [State.storeOk, State.setRecords_pst, State.setRecords_same, hp]
  exact ⟨Nat.zero_le _, le_rfl, h1, h2, h3, trivial⟩

@[simp] theorem State.discardRecords_pst (s : State) : s.discardRecords.pst = s.pst := by simp

/-- The chains at rest, with nothing in flight and nothing placed (R158, R173). -/
def State.chainsAtRest (s : State) : State :=
  { s.abandonWrites with
    ctl := { s.ctl with ctx := s.ctl.ctx.reset }
    evt := s.evt.reset
    cap := { ctx := s.cap.ctx.reset, closing := none }
    pst := { s.pst with placed := 0, block := none, flushAt := none } }

theorem State.chainsAtRest_keeps (s : State) : s.Keeps s.chainsAtRest := by
  refine (s.abandonWrites_keeps.trans (State.unplace_keeps _)).trans (.of_chains fun _ => ?_)
  exact ⟨ChainCtx.reset_ok _, ChainCtx.reset_ok _, ChainCtx.reset_ok _, ChainState.noConfusion, Nat.zero_le _⟩

theorem State.chainsEffect_eq (s : State) : s.chainsEffect =
    if s.pst.records.isEmpty then
      (({ s.chainsAtRest.discardRecords.setRecords [] with
        prt := { (s.chainsAtRest.discardRecords.setRecords []).prt with chains := .idle } } : State)).notify .resetDone
    else { s.chainsAtRest.discardRecords.setRecords [] with
      prt := { (s.chainsAtRest.discardRecords.setRecords []).prt with chains := .waitDiscard } } := rfl

theorem State.chainsEffect_keeps (s : State) : s.Keeps s.chainsEffect := by
  rw [State.chainsEffect_eq]
  have h : s.Keeps (s.chainsAtRest.discardRecords.setRecords []) :=
    (s.chainsAtRest_keeps.trans (State.discardRecords_keeps _)).trans (State.emptied_keeps (by simp [State.chainsAtRest]))
  exact .ite (fun _ => (h.trans (.of_port ⟨[], rfl⟩)).trans (State.notify_keeps _ _))
    fun _ => h.trans (.of_port ⟨[], rfl⟩)

theorem State.settleScope_keeps (s : State) : s.Keeps s.settleScope :=
  .ite (fun _ => s.chainsEffect_keeps) fun _ => .refl s

theorem State.resetAuctions_keeps (s : State) : s.Keeps s.resetAuctions :=
  (s.removeRecords_keeps _).trans (.of_atu fun _ g => ATU.powerOn_ok g)

theorem State.resetAbandons_keeps (s : State) : s.Keeps s.resetAbandons :=
  (s.resetAuctions_keeps.trans (State.left_keeps _)).trans (.foldl (fun t g => t.resetAbandon_keeps s.atu g) _ _)

theorem State.auctionsEffect_keeps (s : State) : s.Keeps s.auctionsEffect := by
  refine .ite (fun _ => ?_) fun _ => .ite (fun _ => ?_) fun _ => .of_port ⟨[], rfl⟩
  · exact (s.resetAuctions_keeps.trans (.of_port ⟨[], rfl⟩)).trans (State.notify_keeps _ _)
  · exact s.resetAbandons_keeps.trans (.of_port ⟨[], rfl⟩)

theorem State.settleAuctions_keeps (s : State) : s.Keeps s.settleAuctions :=
  .ite (fun _ => s.auctionsEffect_keeps) fun _ => .refl s

/-! ## What cannot wait -/

theorem State.runTimers_keeps (s : State) : s.Keeps s.runTimers :=
  .ite (fun _ => (s.settleTimers_keeps _).trans (State.promise_keeps _ _)) fun _ => .refl s

theorem State.tickTimers_keeps (s : State) : s.Keeps s.tickTimers :=
  .ite (fun _ => s.runTimers_keeps) fun _ => .refl s

theorem State.takeScope_keeps (s : State) : s.Keeps s.takeScope :=
  .ite (fun _ => s.tickTimers_keeps.trans (State.keep_keeps State.settleScope_keeps)) fun _ => .refl s

theorem State.settleChains_keeps (s : State) : s.Keeps s.settleChains :=
  (s.settleScope_keeps.trans (State.settleAuctions_keeps _)).trans
    (((State.settleControl_keeps _).trans (State.settleEvent_keeps _)).trans (State.busCheck_keeps _ _))

theorem State.settleRest_keeps (s : State) : s.Keeps s.settleRest :=
  .ite (fun _ => .refl s) fun _ =>
    ((State.keep_keeps State.failWrites_keeps).trans (State.tickTimers_keeps _)).trans
      (State.keep_keeps State.settleChains_keeps)

theorem State.settle_keeps (s : State) : s.Keeps s.settle :=
  .ite (fun _ => .refl s) fun _ =>
    .trans (.ite (fun _ => s.sendPlain_keeps) fun _ => .refl s) (State.settleRest_keeps _)

theorem State.act_keeps {k : State → State} (hk : ∀ v : State, v.Keeps (k v)) (s : State) : s.Keeps (s.act k) :=
  s.settle_keeps.trans (State.keep_keeps hk)

theorem State.actIO_keeps {k : State → State} (hk : ∀ v : State, v.Keeps (k v)) (s : State) : s.Keeps (s.actIO k) :=
  State.act_keeps (fun v => (hk v).trans (State.busCheck_keeps _ _)) s

end Sys2Proof.Machine
end

section
/-! SUPPORT. Every command keeps every invariant: the walks, the commands of the chains, the requests. -/

namespace Sys2Proof.Machine

open Sys2Proof

/-! ## The oscillator (R1, R190) -/

/-- The counter after an addition of INC lies in its ranges, for an INC that a C within the slew limit gives. -/
theorem State.advance_keeps (s : State) : s.Keeps s.advance := by
  refine .of_time (fun ⟨hs, hn, hf, he, hi, hl1, hl2, hii, hc⟩ => ?_) id
  have hinc : s.tb.inc ≤ 17188459119 := hi ▸ (incOf_bounds (by omega)).2
  obtain ⟨h1, h2, h3⟩ := s.tb.advance_ranges hs hn hf hinc
  exact ⟨h1, h2, h3, s.tb.advance_epoch ▸ he, s.tb.advance_inc.trans hi, hl1, hl2, hii, hc⟩

theorem State.closePeriod_keeps (s : State) : s.Keeps s.closePeriod := by
  have h : s.Keeps ((s.work.settleJudge.recognizeEdge .chk0 s.work.settleJudge.now).recognizeEdge .chk1
      (s.work.settleJudge.recognizeEdge .chk0 s.work.settleJudge.now).now) :=
    ((s.work_keeps.trans (State.settleJudge_keeps _)).trans (State.recognizeEdge_keeps ..)).trans
      (State.recognizeEdge_keeps ..)
  exact (h.trans (.ite (fun _ => State.emitBoundary_keeps _ _) fun _ => .refl _)).trans (State.flush_keeps _)

theorem State.nextPeriod_keeps (s : State) : s.Keeps s.nextPeriod :=
  (s.closePeriod_keeps.trans (State.advance_keeps _)).trans (State.runTimers_keeps _)

/-! ## Lines (R49 to R71) -/

/-- From `s` to `t` no line changes but in its counters, which an attestation boundary clears (R128). -/
abbrev State.linesCounted (s t : State) : Prop :=
  ∀ l : Fin 4, t.line l = { s.line l with counters := (t.line l).counters }

/-- From `s` to `t` the lines change in their counters alone, nothing but interrupts is sent, and no notice is
cleared: so it is with everything that the period's work does. -/
structure State.Signals (s t : State) : Prop where
  lines : s.linesCounted t
  wire : ∃ n : Nat, t.wire = List.replicate n .interrupt ++ s.wire
  notice : ∀ i : Nat, s.prt.notice.getLsbD i = true → t.prt.notice.getLsbD i = true

theorem State.Signals.of_same {s t : State} (hl : t.lines = s.lines) (hw : t.wire = s.wire)
    (hn : t.prt.notice = s.prt.notice) : s.Signals t :=
  ⟨fun l => by simp [State.line, hl], ⟨0, by simpa using hw⟩, fun i h => by rw [hn]; exact h⟩

theorem State.Signals.refl (s : State) : s.Signals s := .of_same rfl rfl rfl

theorem State.Signals.trans {s t u : State} (h : s.Signals t) (k : t.Signals u) : s.Signals u where
  lines l := by rw [k.lines l, h.lines l]
  wire := by
    obtain ⟨n, hn⟩ := h.wire
    obtain ⟨m, hm⟩ := k.wire
    exact ⟨m + n, by rw [hm, hn, List.replicate_add, List.append_assoc]⟩
  notice i := k.notice i ∘ h.notice i

theorem State.Signals.ite {s a b : State} {c : Prop} [Decidable c] (ha : s.Signals a) (hb : s.Signals b) :
    s.Signals (if c then a else b) := by
  split
  · exact ha
  · exact hb

theorem State.Signals.foldl {α : Type} {f : State → α → State} (hf : ∀ (s : State) (a : α), s.Signals (f s a))
    (l : List α) (s : State) : s.Signals (l.foldl f s) := by
  induction l generalizing s with
  | nil => exact .refl s
  | cons a l ih => exact (hf s a).trans (ih _)

theorem State.Signals.times {f : State → State} (hf : ∀ s : State, s.Signals (f s)) (n : Nat) (s : State) :
    s.Signals (times f n s) := by
  induction n generalizing s with
  | zero => exact .refl s
  | succ n ih => exact (hf s).trans (ih _)

theorem State.notify_signals (s : State) (c : Cause) : s.Signals (s.notify c) where
  lines _ := rfl
  wire := by
    unfold State.notify State.message
    dsimp only
    split
    · exact ⟨1, rfl⟩
    · exact ⟨0, rfl⟩
  notice i h := by simp only [State.notify_prt, BitVec.getLsbD_or, h, Bool.true_or]

theorem State.Signals.thenNotify {s t : State} (h : s.Signals t) (c : Cause) : s.Signals (t.notify c) :=
  h.trans (t.notify_signals c)

theorem State.notifyIf_signals (s : State) (b : Bool) (c : Cause) : s.Signals (s.notifyIf b c) :=
  .ite (s.notify_signals c) (.refl s)

/-! ### Timers -/

theorem State.runAlarm_signals (s : State) (a : Fin 8) (epoch : Nat) (cls : TraceClass) :
    s.Signals (s.runAlarm a epoch cls) := by
  unfold State.runAlarm
  split
  · exact .refl s
  · exact .thenNotify (by exact .of_same rfl rfl rfl) _

theorem State.passTimers_signals (s : State) (pre post : Instant) : s.Signals (s.passTimers pre post) := by
  refine .trans (t := allGroups.foldl (State.passGroup pre post) s) (.of_same ?_ ?_ ?_) (.foldl (fun t a => ?_) _ _)
  · simp
  · simp
  · simp
  · unfold State.passAlarm
    split
    · exact .refl t
    · exact .ite (.thenNotify (by exact .of_same rfl rfl rfl) _) (.refl t)

/-! ### The work of a second (R36) -/

theorem State.settleAdvance_signals (s v : State) : s.Signals (s.settleAdvance v) := by
  have hj : s.Signals s.settleJudge := .of_same (by simp) (by simp) (by simp)
  refine .ite (hj.trans ⟨fun l => ?_, ⟨0, rfl⟩, fun _ h => h⟩) hj
  have hl : (s.settleJudge.emitBoundary v).line l = { s.settleJudge.line l with counters := Counters.zero } :=
    Quad.get_map _ _ _
  rw [hl]

theorem State.afterMove_signals (s : State) (pre post : Instant) (d : Int) : s.Signals (s.afterMove pre post d) :=
  have h : s.Signals (s.moveEvidence post) := .of_same rfl rfl rfl
  .ite (h.trans (State.passTimers_signals ..)) h

theorem State.applyStep_signals (s : State) (cls : TraceClass) (sec : Second) : s.Signals (s.applyStep cls sec) := by
  unfold State.applyStep
  dsimp only
  exact .trans (.of_same (by simp) (by simp) (by simp)) (State.afterMove_signals ..)

theorem State.applySet_signals (s : State) (cls : TraceClass) (sec : Second) : s.Signals (s.applySet cls sec) := by
  unfold State.applySet
  dsimp only
  refine .ite (.of_same (by simp) (by simp) (by simp)) ?_
  exact .trans (.of_same (by simp) (by simp) (by simp)) (State.afterMove_signals ..)

theorem State.moveTime_signals (s : State) (cls : TraceClass) (sec : Second) (mv : Move) :
    s.Signals (s.moveTime cls sec mv) := by
  have h (d : Option Demand) : s.Signals { s with tb := { s.tb with demand := d } } := .of_same rfl rfl rfl
  cases mv with
  | keep => exact .refl s
  | withdraw => exact h _
  | hold => exact h _
  | step => exact (h none).trans (State.applyStep_signals ..)
  | set => exact (h none).trans (State.applySet_signals ..)

theorem State.stateChanged_signals (s : State) (old : DState) (sec : Second) : s.Signals (s.stateChanged old sec) :=
  .ite (.thenNotify (by exact .of_same rfl rfl rfl) _) (.refl s)

theorem State.holdDemand_signals (s : State) (newly : Bool) (sec : Second) : s.Signals (s.holdDemand newly sec) :=
  .ite ((s.notify_signals .stepHeld).trans (.of_same rfl rfl rfl)) (.refl s)

theorem State.classChanged_signals (s : State) (old : TraceClass) (now : Stamp) (cls : TraceClass) :
    s.Signals (s.classChanged old now cls) :=
  .ite (.thenNotify (by exact .of_same rfl rfl rfl) _) (.refl s)

theorem State.adoptOffset_signals (s : State) (sec : Second) : s.Signals (s.adoptOffset sec) :=
  .ite (.of_same rfl rfl rfl) (.refl s)

theorem State.handSecond_signals (s : State) (servo : Bool) (sec : Second) : s.Signals (s.handSecond servo sec) :=
  .of_same (by simp) (by simp) (by simp)

theorem State.workOf_signals (s : State) (sec : Second) : s.Signals (s.workOf sec) := by
  have h0 : s.Signals (State.setInc { s with du := s.duAfter sec (s.moveOf sec) }) := .of_same rfl rfl rfl
  exact (((((h0.trans (State.moveTime_signals _ s.du.cls sec _)).trans (State.stateChanged_signals _ s.du.state sec)).trans
    (State.holdDemand_signals _ _ sec)).trans (State.classChanged_signals _ s.du.cls _ _)).trans
      (State.adoptOffset_signals _ sec)).trans (State.handSecond_signals _ _ sec)

theorem State.actOn_signals (s : State) (sec : Second) : s.Signals (s.actOn sec) :=
  .ite ((s.settleAdvance_signals _).trans (State.workOf_signals ..)) (s.workOf_signals sec)

theorem State.takeAction_signals (s : State) : s.Signals s.takeAction := by
  unfold State.takeAction
  split
  · next sec rest _ =>
    have h : s.Signals { s with du := { s.du with judged := rest } } := .of_same rfl rfl rfl
    exact (h.trans (State.actOn_signals _ sec)).trans (.of_same rfl rfl rfl)
  · exact .refl s

theorem State.missingSecond_signals (s : State) : s.Signals s.missingSecond :=
  have h (du : DU) (sec : Second) : s.Signals (State.actOn { s with du := du } sec).reading :=
    have h0 : s.Signals { s with du := du } := .of_same rfl rfl rfl
    (h0.trans (State.actOn_signals _ sec)).trans (.of_same rfl rfl rfl)
  h _ _

theorem State.closeActions_signals (s : State) : s.Signals s.closeActions :=
  .times (fun s => .ite s.takeAction_signals (.refl s)) _ _

theorem State.acted_signals (s : State) : s.Signals s.acted := by
  refine .trans (t := if s.actionDue then s.closeActions else s) ?_ (.of_same rfl rfl rfl)
  exact .ite s.closeActions_signals (.refl s)

theorem State.holdoverSecond_signals (s : State) : s.Signals s.holdoverSecond := by
  unfold State.holdoverSecond
  dsimp only
  have h (du : DU) (old cls : TraceClass) (now : Stamp) :
      s.Signals (State.classChanged { s with du := du } old now cls).handOver :=
    have h0 : s.Signals { s with du := du } := .of_same rfl rfl rfl
    (h0.trans (State.classChanged_signals ..)).trans (.of_same rfl rfl rfl)
  exact .ite (h _ _ _ _) ((h _ _ _ _).trans (State.acted_signals _))

theorem State.work_signals (s : State) : s.Signals s.work := by
  unfold State.work
  dsimp only
  have h1 := s.closeActions_signals
  generalize s.closeActions = a at h1
  have h2 : s.Signals (if a.missingDue then a.missingSecond else a) := .ite (h1.trans a.missingSecond_signals) h1
  exact .ite (h2.trans (State.holdoverSecond_signals _)) h2

theorem State.done_signals (s : State) : s.Signals s.done := .ite s.work_signals (.refl s)

theorem State.left_signals (s : State) : s.Signals s.left := s.done_signals.trans (.of_same rfl rfl rfl)

/-! ### Frames -/

theorem State.startFrame_keeps {s : State} {l : Fin 4} (hup : (s.line l).up = true) : s.Keeps (s.startFrame l) := by
  unfold State.startFrame
  dsimp only
  split
  · refine s.left_keeps.trans (State.setLine_keeps (Line.begin_ok _ _ ?_))
    have hl : (s.left.line l).up = (s.line l).up := by rw [s.left_signals.lines l]
    rw [hl, hup]
  · exact State.setLine_keeps (Line.begin_ok _ _ hup)

/-- The transmitter that chooses again over the rest of a queue that fitted. -/
theorem Line.chooseRest_ok {l : Line} {acks : List Response} (h : l.ok) (hl : acks.length ≤ l.acks.length)
    (b : Bool) : (Line.choose { l with acks := acks, flowDue := b }).ok := by
  obtain ⟨hf, ha, hc, hframe, -⟩ := h
  exact Line.choose_ok (l := { l with acks := acks, flowDue := b }) hf (hl.trans ha) hc hframe

theorem State.notifyLinks_keeps (s : State) (old : Quad Line) : s.Keeps (s.notifyLinks old) :=
  (((s.notifyIf_keeps _ _).trans (State.notifyIf_keeps _ _ _)).trans (State.notifyIf_keeps _ _ _)).trans
    (State.notifyIf_keeps _ _ _)

theorem State.resetLines_keeps (s : State) : s.Keeps s.resetLines := by
  have h : s.Keeps { s with
      lines := s.lines.map fun l => l.reset s.pst.records.length s.pst.params.high s.pst.params.low } :=
    .of_lines fun _ l => by rw [Quad.get_map]; exact Line.reset_ok ..
  exact (h.trans (.of_att (by exact id))).trans (State.notifyLinks_keeps _ _)

/-! ## Blocks and slots (R138, R149, R157, R163) -/

/-- An ACTIVE chain walks on. -/
theorem State.walkTo_keeps {s : State} {c : Chain} (w : Walk) (ha : (s.ctx c).state = .active) :
    s.Keeps (s.setCtx c { s.ctx c with walk := w }) := State.setActive_keeps ha ha rfl rfl

theorem State.badRequest_keeps {s : State} {c : Chain} (h : BlockHeader) (ha : (s.ctx c).state = .active) :
    s.Keeps (s.badRequest c h) := by
  cases c <;> exact (s.post_keeps _).trans (State.setActive_keeps ha ha rfl rfl)

theorem State.takeControlBlock_keeps {s : State} (h : BlockHeader) (ha : s.ctl.ctx.state = .active) :
    s.Keeps (s.takeControlBlock h) := by
  unfold State.takeControlBlock
  exact ((s.post_keeps _).trans (.of_chains (by exact id))).trans (State.advanceControl_keeps _ _ ha)

theorem State.takeEventBlock_keeps {s : State} (h : BlockHeader) (ha : s.evt.ctx.state = .active) :
    s.Keeps (s.takeEventBlock h) := by
  unfold State.takeEventBlock
  exact ((s.post_keeps _).trans (.of_chains (by exact id))).trans (State.advanceEvent_keeps _ _ ha)

theorem State.openCapture_keeps {s : State} (h : BlockHeader) (ha : s.cap.ctx.state = .active) :
    s.Keeps (s.openCapture h) := by
  have hw : s.Keeps (s.setCtx .capture { s.cap.ctx with walk := .none }) := State.walkTo_keeps (c := .capture) _ ha
  unfold State.openCapture
  exact hw.trans (.of_pst (by exact id))

theorem State.badCapture_keeps {s : State} (h : BlockHeader) (ha : s.cap.ctx.state = .active) :
    s.Keeps (s.badCapture h) := by
  have hw (ws : List HostWrite) : s.Keeps ((s.post ws).setCtx .capture { s.cap.ctx with walk := .none }) :=
    (s.post_keeps ws).trans (State.walkTo_keeps (c := .capture) _ ha)
  unfold State.badCapture
  exact (hw _).trans (.of_chains (by exact id))

theorem State.enterHeader_keeps {s : State} {c : Chain} (h : BlockHeader) (ha : (s.ctx c).state = .active) :
    s.Keeps (s.enterHeader c h) := by
  refine .ite (fun _ => State.park_keeps _ ha) fun _ => ?_
  cases c with
  | control => exact .ite (fun _ => State.takeControlBlock_keeps h ha) fun _ => State.badRequest_keeps h ha
  | event => exact .ite (fun _ => State.takeEventBlock_keeps h ha) fun _ => State.badRequest_keeps h ha
  | capture => exact .ite (fun _ => State.openCapture_keeps h ha) fun _ => State.badCapture_keeps h ha

theorem State.active_of_walking {s : State} {c : Chain} (h : s.walking c = true) : (s.ctx c).state = .active := by
  simp only [State.walking, Bool.and_eq_true, beq_iff_eq] at h
  exact h.1

theorem State.malformedControl_keeps {s : State} (off : Nat) (ha : s.ctl.ctx.state = .active) :
    s.Keeps (s.malformedControl off) := by
  unfold State.malformedControl
  exact (((s.post_keeps _).trans (State.countControl_keeps _)).trans (State.finishControl_keeps ..)).trans
    (State.setActive_keeps (c := .control) ha ha rfl rfl)

theorem State.controlHead_keeps {s : State} (off : Nat) (h : SlotHead) (ha : s.ctl.ctx.state = .active) :
    s.Keeps (s.controlHead off h) :=
  .ite (fun _ => State.malformedControl_keeps off ha) fun _ =>
    .ite (fun _ => State.advanceControl_keeps _ _ ha) fun _ =>
      (State.walkTo_keeps (c := .control) _ ha).trans (State.settleControl_keeps _)

theorem State.eventHead_keeps {s : State} (off : Nat) (h : SlotHead) (ha : s.evt.ctx.state = .active) :
    s.Keeps (s.eventHead off h) :=
  .ite (fun _ => ((s.post_keeps _).trans (State.mapCurrent_keeps _ _)).trans (State.leaveEvent_keeps ha)) fun _ =>
    .ite (fun _ => State.advanceEvent_keeps _ _ ha) fun _ =>
      (State.walkTo_keeps (c := .event) _ ha).trans (State.settleEvent_keeps _)

theorem State.completeWriteBack_keeps (s : State) (wb : WriteBack) (rest : List WriteBack) :
    s.Keeps (s.completeWriteBack wb rest) := by
  unfold State.completeWriteBack
  dsimp only
  have h : s.Keeps (State.finishEvent { s with evt := { s.evt with
      writeBacks := rest, blocks := mapWritten wb s.evt.blocks } }) :=
    .trans (.of_chains (by exact id)) (State.finishEvent_keeps _)
  generalize State.finishEvent _ = t at h ⊢
  exact .ite (fun hc => h.trans (State.finishStop_keeps hc.1)) fun _ => h

theorem State.leaveFinished_keeps (s : State) (c : Chain) : s.Keeps (s.leaveFinished c) := by
  cases ha : (s.ctx c).state with
  | active =>
    cases hw : (s.ctx c).walk with
    | finishing next =>
      cases next with
      | none => simpa [State.leaveFinished, ha, hw] using State.readNext_keeps ha
      | some a => simpa [State.leaveFinished, ha, hw] using State.followNext_keeps a ha
    | _ => simpa [State.leaveFinished, ha, hw] using State.Keeps.refl s
  | _ => simpa [State.leaveFinished, ha] using State.Keeps.refl s

theorem State.placeRecord_keeps {s : State} (b : OpenBlock) {r : Record} (hr : s.unplaced = some r) :
    s.Keeps (s.placeRecord b r) := by
  have hlt : s.pst.placed < s.pst.records.length := by
    rw [State.unplaced] at hr
    exact (List.getElem?_eq_some_iff.mp hr).1
  have h : s.Keeps { s with pst := { s.pst with
      block := some (b.take r)
      placed := s.pst.placed + 1
      flushAt := if b.count = 0 then some (s.clock.own + ownUnits s.pst.params.flush) else s.pst.flushAt } } := by
    refine .of_pst fun hs => ?_
    obtain ⟨h1, -, hrest⟩ := hs
    exact ⟨h1, hlt, hrest⟩
  unfold State.placeRecord
  exact .ite (fun _ => (h.trans (State.post_keeps _ _)).trans (State.closeBlock_keeps ..))
    fun _ => h.trans (State.post_keeps _ _)

/-- The placed records leave PST from its head (R161). -/
theorem State.dropPlaced_keeps {s : State} {rs : List Record} (hrs : rs = s.pst.records.drop s.pst.placed) :
    s.Keeps (State.setRecords { s with
      cap := { s.cap with closing := none }, pst := { s.pst with placed := 0 } } rs) := by
  subst hrs
  have h : s.KeepsBlocks { s with cap := { s.cap with closing := none }, pst := { s.pst with placed := 0 } } :=
    ⟨id, id, id, id, id, id, id, rfl, [], rfl⟩
  refine ⟨h.trans (State.setRecords_keepsBlocks _ _), fun hs => ?_⟩
  obtain ⟨h1, -, h3, h4, h5, h6⟩ := hs
  simp only [State.storeOk, State.setRecords_pst, State.setRecords_same]
  exact ⟨by simp only [List.length_drop]; omega, Nat.zero_le _, h3, h4, h5, numbered_drop h6 _⟩

theorem State.leaveCapture_keeps (s : State) : s.Keeps s.leaveCapture := by
  unfold State.leaveCapture
  split
  · exact .refl s
  · split
    · next hs =>
      refine State.setRest_keeps (c := .capture) (fun h => ?_) rfl
      have hok : s.cap.ctx.ok := h
      simp only [ChainCtx.ok, hs, reduceCtorEq, iff_false, Bool.not_eq_true, Option.isSome_eq_false_iff,
        Option.isNone_iff_eq_none, imp_false] at hok
      exact ChainCtx.ok_of_rest (.inl rfl) hok.1 hok.2.1 hok.2.2.1 rfl
    · next ha => exact State.readNext_keeps ha
    · exact .refl s

/-! ## The chain commands (R140 to R144, R169) -/

theorem State.ignoreCommand_keeps (s : State) (c : Chain) : s.Keeps (s.ignoreCommand c) :=
  State.setCtx_keeps id fun _ => id

theorem State.command_keeps {s : State} {c : Chain} {k : State → State} (hk : s.Keeps (k s)) :
    s.Keeps (s.command c k) := .ite (fun _ => s.ignoreCommand_keeps c) fun _ => hk

theorem State.startChain_keeps (s : State) (c : Chain) : s.Keeps (s.startChain c) := by
  unfold State.startChain
  dsimp only
  refine .ite (fun hs => ?_) fun _ => s.ignoreCommand_keeps c
  have h : s.Keeps (s.setCtx c { s.ctx c with
      state := .active, park := none, remembered := false, fault := none, ignored := false }) :=
    State.setCtx_keeps (fun _ => (ChainCtx.ok_of_active rfl).mpr ⟨rfl, rfl⟩) fun _ h => ChainState.noConfusion h
  exact .ite (fun _ => h.trans (State.enterFault_keeps ..)) fun _ =>
    h.trans (State.enterBlock_keeps _ (by simp))

theorem State.resumeChain_keeps (s : State) (c : Chain) : s.Keeps (s.resumeChain c) := by
  unfold State.resumeChain
  dsimp only
  split
  · next hp =>
    refine State.setCtx_keeps (fun h => ?_) fun _ h => ChainState.noConfusion h
    refine (ChainCtx.ok_of_active rfl).mpr ⟨rfl, ?_⟩
    obtain ⟨-, hf, -⟩ := h
    simpa [hp] using hf
  · next ha => exact State.setActive_keeps ha ha rfl rfl
  · exact s.ignoreCommand_keeps c

theorem State.forgetLeave_keeps (s : State) (c : Chain) : s.Keeps (s.forgetLeave c) := .of_port ⟨[], rfl⟩

theorem State.stopControl_keeps (s : State) : s.Keeps s.stopControl := by
  unfold State.stopControl
  split
  · next ha =>
    unfold State.stopWalking
    split
    · exact State.setActive_keeps (c := .control) ha ha rfl rfl
    · exact State.setActive_keeps (c := .control) ha ha rfl rfl
    · exact ((s.finishControl_keeps ..).trans (State.forgetLeave_keeps _ _)).trans (State.setStopped_keeps ..)
    · exact (s.forgetLeave_keeps _).trans (State.setStopped_keeps ..)
  · exact s.setStopped_keeps ..
  · exact s.setStopped_keeps ..
  · exact s.ignoreCommand_keeps _

/-- A chain that stops by stages comes of one that walks or is parked, which has no fault cause. -/
theorem ChainCtx.stopping_ok {x y : ChainCtx} (hx : x.state = .active ∨ x.state = .parked) (h : x.ok)
    (hy : y.state = .stopping) (hp : y.park = none) (hf : y.fault = x.fault) (hr : y.remembered = false)
    (hw : y.walk = .none) : y.ok := by
  obtain ⟨-, hfault, -⟩ := h
  refine ChainCtx.ok_of_rest (.inr hy) hp ?_ hr hw
  rw [hf]
  obtain hx | hx := hx
  all_goals simpa [hx] using hfault

theorem State.stopWalk_keeps {s : State} (hs : s.evt.ctx.state = .active ∨ s.evt.ctx.state = .parked) :
    s.Keeps s.stopWalk := by
  have h : s.Keeps ((s.forgetLeave .event).setCtx .event
      { s.evt.ctx with state := .stopping, park := none, remembered := false, ignored := false, walk := .none }) :=
    (s.forgetLeave_keeps _).trans (State.setCtx_keeps (fun h => ChainCtx.stopping_ok hs h rfl rfl rfl rfl rfl)
      fun h => Chain.noConfusion h)
  exact .ite (fun _ => h.trans (State.finishStop_keeps rfl)) fun _ => h

theorem State.stopEvent_keeps (s : State) : s.Keeps s.stopEvent := by
  unfold State.stopEvent
  split
  · next h => exact State.stopWalk_keeps (.inl h)
  · next h => exact State.stopWalk_keeps (.inr h)
  · exact s.setStopped_keeps ..
  · exact s.ignoreCommand_keeps _

theorem State.stopCapture_keeps (s : State) : s.Keeps s.stopCapture := by
  unfold State.stopCapture
  split
  · next ha =>
    have hstop : s.Keeps s.stoppingCapture :=
      State.setCtx_keeps (c := .capture) (fun h => ChainCtx.stopping_ok (.inl ha) h rfl rfl rfl rfl rfl)
        fun h => Chain.noConfusion h
    split
    · exact .ite (fun _ => (s.setStopped_keeps .capture _).trans (.of_pst (by exact id))) fun _ =>
        hstop.trans (State.closeBlock_keeps ..)
    · exact hstop
    · exact s.setStopped_keeps ..
  · exact s.setStopped_keeps ..
  · exact s.setStopped_keeps ..
  · exact s.ignoreCommand_keeps _

theorem State.stopChain_keeps (s : State) (c : Chain) : s.Keeps (s.stopChain c) := by
  cases c with
  | control => exact s.stopControl_keeps
  | event => exact s.stopEvent_keeps
  | capture => exact s.stopCapture_keeps

/-! ## Takes of event slots (R154) -/

theorem State.takeEvent_keeps {s : State} (off : Nat) (h : SlotHead) (e : EngineEntry)
    (ha : s.evt.ctx.state = .active) (room : s.evt.fifo.length < Config.engineDepth) :
    s.Keeps (s.takeEvent off h e) := by
  have hf : s.Keeps { s with evt := { s.evt with fifo := s.evt.fifo ++ [e] } } := by
    refine .of_chains fun hs => ?_
    obtain ⟨h1, h2, h3, h4, -⟩ := hs
    exact ⟨h1, h2, h3, h4, by simpa using room⟩
  unfold State.takeEvent
  exact ((hf.trans (State.post_keeps _ _)).trans (State.mapCurrent_keeps _ _)).trans
    (State.advanceEvent_keeps _ _ ha)

end Sys2Proof.Machine
end

section
/-! SUPPORT. The fifteen control requests keep every invariant, and leave the control chain as it is. -/

namespace Sys2Proof.Machine

open Sys2Proof

/-- An owner's answer keeps every invariant, and the control chain stays at its slot. -/
structure Answer.Keeps (s : State) (a : Answer) : Prop where
  state : s.Keeps a.state
  ctl : a.state.ctl = s.ctl

theorem refused_keeps (s : State) (st : SlotStatus) : Answer.Keeps s (refused s st) := ⟨.refl s, rfl⟩

theorem granted_keeps {s t : State} (r : List Byte) (h : s.Keeps t) (hc : t.ctl = s.ctl) :
    Answer.Keeps s (granted t r) := ⟨h, hc⟩

theorem armRefused_keeps (s : State) (st : SlotStatus) (p : GroupPhase) : Answer.Keeps s (armRefused s st p) :=
  ⟨.refl s, rfl⟩

theorem Answer.Keeps.of_left {s : State} {a : Answer} (h : Answer.Keeps s.left a) : Answer.Keeps s a :=
  ⟨s.left_keeps.trans h.state, h.ctl.trans (by simp)⟩

theorem Answer.Keeps.ite {s : State} {c : Prop} [Decidable c] {a b : Answer} (ha : c → Answer.Keeps s a)
    (hb : ¬ c → Answer.Keeps s b) : Answer.Keeps s (if c then a else b) := by
  split
  · next h => exact ha h
  · next h => exact hb h

/-! ## SET_TIME (R18) -/

theorem Instant.blt_iff (a b : Instant) : a.blt b = true ↔ a.sec < b.sec ∨ a.sec = b.sec ∧ a.ns < b.ns := by
  simp [Instant.blt]

theorem Instant.ble_iff (a b : Instant) : a.ble b = true ↔ a.sec < b.sec ∨ a.sec = b.sec ∧ a.ns ≤ b.ns := by
  simp [Instant.ble]

/-- A set to an earlier time begins an epoch; one at the last epoch is refused with LIMIT (R18). -/
theorem epochAfter_target_le {s : State} {t : HostTime} (h : s.timeRefusal t = none) (hn : s.tb.ns < Config.second)
    (he : s.tb.epoch ≤ Config.epochMax) :
    epochAfter s.tb.epoch ((s.instant.total : Int) - ((hostInstant t).total : Int)) ≤ Config.epochMax := by
  refine epochAfter_le (fun ⟨hmax, hd⟩ => ?_) he
  unfold State.timeRefusal at h
  split at h
  · exact nomatch h
  split at h
  · exact nomatch h
  next hns =>
  split at h
  · exact nomatch h
  next hlim =>
  refine hlim ?_
  simp only [hostTimeOk, Bool.not_eq_true', decide_eq_false_iff_not, not_not] at hns
  simp only [Bool.and_eq_true, decide_eq_true_eq]
  refine ⟨?_, hmax⟩
  simp only [Instant.total, hostInstant, State.instant, Config.second] at hd hn
  rw [Instant.blt_iff]
  simp only [hostInstant, State.instant]
  omega

theorem hostInstant_ranges {s : State} {t : HostTime} (h : s.timeRefusal t = none) :
    (hostInstant t).sec < Config.secondsWrap ∧ (hostInstant t).ns < Config.second := by
  unfold State.timeRefusal at h
  split at h
  · exact nomatch h
  split at h
  · exact nomatch h
  next hns =>
  simp only [hostTimeOk, Bool.not_eq_true', decide_eq_false_iff_not, not_not] at hns
  exact ⟨t.sec.isLt, Nat.lt_succ_of_le hns⟩

/-- The counter placed at a legal target, with I and C at 0 and INC nominal (R18, R17). -/
theorem State.placeTarget_keeps {s u : State} {t : HostTime} (hu : u.tb = s.tb) (h : s.timeRefusal t = none)
    {w : State} (hw : w = u.placeCounter (hostInstant t) 0
      (epochAfter s.tb.epoch ((s.instant.total : Int) - ((hostInstant t).total : Int)))) :
    u.Keeps (State.setInc { w with du := { w.du with i := 0, c := 0 } }) := by
  subst hw
  refine .of_time (fun ⟨_, hn, _, he, _, hl1, hl2, _, _⟩ => ?_) id
  obtain ⟨h1, h2⟩ := hostInstant_ranges h
  exact ⟨h1, h2, Nat.two_pow_pos 32, epochAfter_target_le h (hu ▸ hn) (hu ▸ he), rfl, hl1, hl2, Nat.zero_le _,
    Nat.zero_le _⟩

theorem State.setTimeTo_keeps {s : State} {t : HostTime} (h : s.timeRefusal t = none) :
    s.Keeps (s.setTimeTo (hostInstant t)) := by
  have hs : (s.settleAdvance s).timeRefusal t = none := by
    simpa [State.timeRefusal, State.instant] using h
  unfold State.setTimeTo
  dsimp only
  refine (s.settleAdvance_keeps s).trans ?_
  generalize s.settleAdvance s = u at hs
  refine (u.abandonRunning_keeps u.now u.du.cls).trans ?_
  exact .trans (State.placeTarget_keeps (s := u) (t := t) (by simp) hs rfl)
    ((((State.recordMove_keeps ..).trans (State.afterMove_keeps ..)).trans (State.handOver_keeps _)).trans
      (State.reading_keeps _))

theorem State.setTime_keeps (s : State) (t : HostTime) : Answer.Keeps s (s.setTime t) := by
  unfold State.setTime
  split
  · exact refused_keeps ..
  · next h => exact granted_keeps _ (State.setTimeTo_keeps h) (by simp [State.setTimeTo])

theorem State.closePeriod_ctl (s : State) : s.closePeriod.ctl = s.ctl := by
  unfold State.closePeriod
  dsimp only
  split
  all_goals simp

theorem State.atSetTime_ctl (s : State) (t : HostTime) : (s.atSetTime t).ctl = s.ctl := by
  unfold State.atSetTime
  dsimp only
  split
  · simp [State.nextPeriod, State.advance, State.closePeriod_ctl]
  · simp

theorem State.atSetTime_keeps (s : State) (t : HostTime) : s.Keeps (s.atSetTime t) := by
  have h := s.done_keeps
  exact .ite (fun _ => (h.trans (State.nextPeriod_keeps _)).trans (State.done_keeps _)) fun _ => h

/-! ## SET_STEERING and SET_TRACE_LIMITS (R22, R45) -/

theorem steeringOf_limit {p k policy : Byte} {limit threshold : BitVec 32} {x : Steering}
    (h : steeringOf p k policy limit threshold = some x) : 1 ≤ x.limit ∧ x.limit ≤ 500000 := by
  unfold steeringOf at h
  split at h
  · next hx =>
    obtain ⟨-, -, -, h1, h2, -⟩ := hx
    cases h
    exact ⟨h1, h2⟩
  · exact nomatch h

theorem steeredC_le (st : DState) (c i : Int) (limit : Nat) :
    (steeredC st c (clamp i limit) limit).natAbs ≤ limit := by
  have h := clamp_natAbs_le i limit
  cases st with
  | free => exact Nat.zero_le _
  | acquiring => exact Nat.zero_le _
  | locked => exact clamp_natAbs_le c limit
  | suspect => exact clamp_natAbs_le c limit
  | holdover => simpa [steeredC] using h
  | reacquiring => simpa [steeredC] using h

theorem State.steer_keeps (s : State) {x : Steering} (h1 : 1 ≤ x.limit) (h2 : x.limit ≤ 500000) :
    s.Keeps (s.steer x) := by
  have hdu (inc : Nat) (hi : s.timeOk → inc = incOf (steeredC s.du.state s.du.c (clamp s.du.i x.limit) x.limit))
      (demand : Option Demand) :
      s.Keeps { s with
        tb := { s.tb with inc := inc, demand := demand }
        du := { s.du with
          steering := x, i := clamp s.du.i x.limit
          c := steeredC s.du.state s.du.c (clamp s.du.i x.limit) x.limit } } := by
    refine .of_time (fun hs => ?_) id
    obtain ⟨hs1, hs2, hs3, hs4, -⟩ := id hs
    exact ⟨hs1, hs2, hs3, hs4, hi hs, h1, h2, clamp_natAbs_le .., steeredC_le ..⟩
  unfold State.steer
  dsimp only
  split
  · exact (hdu _ (fun _ => rfl) _).trans (State.createLeft_keeps _ _)
  · next hc =>
    refine (hdu s.tb.inc (fun ht => ?_) _).trans (State.createLeft_keeps _ _)
    obtain ⟨-, -, -, -, hinc, -⟩ := ht
    rw [hinc, not_not.mp hc]

theorem State.steer_ctl (s : State) (x : Steering) : (s.steer x).ctl = s.ctl := by
  unfold State.steer
  dsimp only
  split
  all_goals simp

theorem State.setSteering_keeps (s : State) (p k policy : Byte) (limit threshold : BitVec 32) :
    Answer.Keeps s (s.setSteering p k policy limit threshold) := by
  unfold State.setSteering
  split
  · exact refused_keeps ..
  · next h =>
    obtain ⟨h1, h2⟩ := steeringOf_limit h
    exact granted_keeps _ ((s.steer_keeps h1 h2).trans (State.left_keeps _)) (by simp [State.steer_ctl])

theorem State.limitTrace_keeps (s : State) (x : TraceLimits) : s.Keeps (s.limitTrace x) := by
  have hdu : s.Keeps { s with du := { s.du with
      limits := x
      eBase := if s.du.state = .holdover ∨ s.du.state = .reacquiring then s.du.e else s.du.eBase
      holdCount := if s.du.state = .holdover ∨ s.du.state = .reacquiring then 0 else s.du.holdCount
      cls := classOf s.du.state s.du.e x.divergence } } := .of_time id id
  have hrec {u : State} (hu : s.Keeps u) (old cls : TraceClass) (now : Stamp) (body : Body) :
      s.Keeps ((u.classChanged old now cls).create now cls 255 false false body).handOver :=
    ((hu.trans (State.classChanged_keeps ..)).trans (State.create_keeps ..)).trans (State.handOver_keeps _)
  exact hrec hdu _ _ _ _

theorem State.armGroup_ctl (s : State) (g : Fin 64) (m w x : Nat) (callOpen close : Instant) :
    (s.armGroup g m w x callOpen close).ctl = s.ctl := by
  unfold State.armGroup
  dsimp only
  split
  all_goals simp

theorem State.armAlarm_ctl (s : State) (a : Fin 8) (period : Nat) (first : Instant) :
    (s.armAlarm a period first).ctl = s.ctl := by
  unfold State.armAlarm
  split
  all_goals simp

theorem State.setTraceLimits_keeps (s : State) (divergence floor rate : BitVec 32) :
    Answer.Keeps s (s.setTraceLimits divergence floor rate) := by
  unfold State.setTraceLimits
  split
  · exact refused_keeps ..
  · exact granted_keeps _ ((s.limitTrace_keeps _).trans (State.left_keeps _)) (by simp [State.limitTrace])

/-! ## The lines (R66 to R68) -/

theorem State.setAdmission_keeps (s : State) (index : Byte) (opened : Bool) :
    Answer.Keeps s (s.setAdmission index opened) := by
  unfold State.setAdmission
  split
  · exact refused_keeps ..
  · exact granted_keeps _ (State.setLine_keeps fun h => h) rfl

theorem State.setLineParams_keeps (s : State) (index a b : Byte) : Answer.Keeps s (s.setLineParams index a b) := by
  unfold State.setLineParams
  split
  · exact refused_keeps ..
  · exact granted_keeps _ (State.setLine_keeps fun h => h) rfl

/-! ## SET_SEQUENCE (R84, R85) -/

theorem State.records_of_quiet {s : State} (h : s.quiet = true) : s.pst.records = [] := by
  simp only [State.quiet, Bool.and_eq_true, List.isEmpty_iff] at h
  exact h.1.2

/-- New numbering over an empty PST (R85). -/
theorem State.renumber_keeps {s : State} {next run : Nat} {att : ATT} (hq : s.pst.records = []) (h1 : 1 ≤ next)
    (h2 : next ≤ Config.seqMax) (ha : s.evidenceOk → State.evidenceOk { s with att := att }) :
    s.Keeps { s with
      sqm := { s.sqm with next := next, first := next, run := run, exhausted := false }, att := att } :=
  ⟨⟨id, id, id, id, id, ha, id, rfl, [], rfl⟩, fun ⟨hl, hp, _, _, ht, _⟩ =>
    ⟨hl, hp, h1, h2, ht, by simp only [hq, numbered]⟩⟩

theorem State.newRun_keeps {s : State} {next run : Nat} (hq : s.pst.records = []) (h1 : 1 ≤ next)
    (h2 : next ≤ Config.seqMax) : s.Keeps (s.newRun next run) := by
  have hs := State.renumber_keeps (run := run) (att := { s.att with rangeStart := none }) hq h1 h2 id
  unfold State.newRun
  refine ((hs.trans (State.createLeft_keeps _ _)).trans (State.releaseHead_keeps ?_)).trans (State.left_keeps _)
  refine ⟨rfl, ?_, fun l h => nomatch h⟩
  show s.pst.records.length < Config.storeDepth
  rw [hq]
  decide

theorem State.setSequence_keeps (s : State) (next : BitVec 64) (run : BitVec 32) :
    Answer.Keeps s (s.setSequence next run) := by
  refine .ite (fun _ => refused_keeps ..) fun hn => .ite (fun _ => refused_keeps ..) fun hq => ?_
  have hq : s.quiet = true := by simpa using hq
  refine granted_keeps _ (State.newRun_keeps (State.records_of_quiet hq) ?_ ?_) (by simp [State.newRun])
  · exact Nat.one_le_iff_ne_zero.mpr fun h0 => hn (BitVec.eq_of_toNat_eq h0)
  · exact Nat.le_of_lt_succ next.isLt

/-! ## Groups and alarms (R97 to R100, R105, R117, R118) -/

theorem scheduleOk_ranges {m : Byte} {w x : BitVec 32} {callOpen close : HostTime}
    (h : scheduleOk m w x callOpen close = true) : m.toNat ≤ 15 ∧ w.toNat ≤ 300000 ∧ x.toNat ≤ 3600000 := by
  simp only [scheduleOk, Bool.and_eq_true, decide_eq_true_eq] at h
  obtain ⟨⟨⟨⟨⟨-, hw⟩, -⟩, hx⟩, hm⟩, -⟩ := h
  exact ⟨hm, hw, hx⟩

theorem State.armGroup_keeps (s : State) (g : Fin 64) {m w x : Nat} (callOpen close : Instant) (hm : m ≤ 15)
    (hw : w ≤ 300000) (hx : x ≤ 3600000) : s.Keeps (s.armGroup g m w x callOpen close) := by
  have h (open_ : Instant) : s.Keeps (s.setGroup g ((s.group g).arm m w x open_ close)) :=
    State.setGroup_keeps fun _ => ⟨Nat.zero_le _, hm, hw, hx, Nat.zero_le _⟩
  unfold State.armGroup
  dsimp only
  exact .ite (fun _ => ((h _).trans (State.create_keeps ..)).trans (State.runCallOpen_keeps ..))
    fun _ => (h _).trans (State.create_keeps ..)

theorem State.arm_keeps (s : State) (group m : Byte) (w x : BitVec 32) (callOpen close : HostTime) :
    Answer.Keeps s (s.arm group m w x callOpen close) := by
  unfold State.arm
  split
  · exact armRefused_keeps ..
  refine .ite (fun _ => armRefused_keeps ..) fun _ => .ite (fun _ => armRefused_keeps ..) fun hok => .of_left ?_
  obtain ⟨hm, hw, hx⟩ := scheduleOk_ranges (by simpa using hok)
  refine .ite (fun _ => armRefused_keeps ..) fun _ => .ite (fun _ => armRefused_keeps ..) fun _ => ?_
  exact granted_keeps _ (State.armGroup_keeps _ _ _ _ hm hw hx) (State.armGroup_ctl ..)

theorem State.disarm_keeps (s : State) (group : Byte) : Answer.Keeps s (s.disarm group) := by
  unfold State.disarm
  split
  · exact refused_keeps ..
  refine .ite (fun _ => refused_keeps ..) fun _ =>
    .ite (fun _ => granted_keeps _ (.refl s) rfl) fun _ => .of_left ?_
  refine .ite (fun _ => refused_keeps ..) fun _ => granted_keeps _ ?_ (by simp [State.disarmGroup])
  refine .trans (State.setGroup_keeps fun _ => ?_) (State.create_keeps ..)
  exact ⟨Nat.zero_le _, Nat.zero_le _, Nat.zero_le _, Nat.zero_le _, Nat.zero_le _⟩

theorem State.setSeed_keeps (s : State) (seed : BitVec 32) : Answer.Keeps s (s.setSeed seed) :=
  granted_keeps _ (.of_atu id) rfl

theorem State.setAlarmEntry_keeps (s : State) (index : Byte) (period : BitVec 32) (first : HostTime) :
    Answer.Keeps s (s.setAlarmEntry index period first) := by
  unfold State.setAlarmEntry
  split
  · exact refused_keeps ..
  refine .ite (fun _ => refused_keeps ..) fun _ => .of_left (granted_keeps _ ?_ ?_)
  · exact .ite (fun _ => (State.setAlarm_keeps _ _ _).trans (State.runAlarm_keeps ..)) fun _ =>
      State.setAlarm_keeps _ _ _
  · exact State.armAlarm_ctl ..

theorem State.cancelAlarm_keeps (s : State) (index : Byte) : Answer.Keeps s (s.cancelAlarm index) := by
  unfold State.cancelAlarm
  split
  · exact refused_keeps ..
  refine .ite (fun _ => granted_keeps _ (.refl s) rfl) fun _ => .of_left (granted_keeps _ ?_ rfl)
  exact State.setAlarm_keeps _ _ _

/-! ## Evidence and capture settings (R135, R172) -/

theorem checkOf_limit {c : CheckParams} {x : Bool × CheckFilter × Nat} (h : checkOf c = some x) :
    1 ≤ x.2.2 ∧ x.2.2 ≤ 1000000 := by
  unfold checkOf at h
  split at h
  · split at h
    · next hl => cases h; exact hl
    · exact nomatch h
  · exact nomatch h

theorem State.configureEvidence_keeps (s : State) {period : Nat} {x0 x1 : Bool × CheckFilter × Nat}
    (hp : 1 ≤ period ∧ period ≤ 60) (h0 : 1 ≤ x0.2.2 ∧ x0.2.2 ≤ 1000000) (h1 : 1 ≤ x1.2.2 ∧ x1.2.2 ≤ 1000000) :
    s.Keeps (s.configureEvidence period x0 x1) := by
  unfold State.configureEvidence
  dsimp only
  refine s.settleJudge_keeps.trans (.trans (.of_att fun h => ?_) (State.acted_keeps _))
  obtain ⟨-, -, hs, ht, ⟨he0, hm0, -⟩, ⟨he1, hm1, -⟩⟩ := h
  exact ⟨hp.1, hp.2, hs, ht, ⟨he0, hm0, h0⟩, ⟨he1, hm1, h1⟩⟩

theorem State.setEvidence_keeps (s : State) (period : Byte) (chk0 chk1 : CheckParams) :
    Answer.Keeps s (s.setEvidence period chk0 chk1) := by
  unfold State.setEvidence
  split
  · next h0 h1 =>
    refine .ite (fun hp => granted_keeps _ ?_ (by simp [State.configureEvidence])) fun _ => refused_keeps ..
    exact s.configureEvidence_keeps hp (checkOf_limit h0) (checkOf_limit h1)
  · exact refused_keeps ..

theorem State.setCapture_keeps (s : State) (flush : BitVec 32) (high low push : BitVec 16) (notifyAll : Byte) :
    Answer.Keeps s (s.setCapture flush high low push notifyAll) := by
  unfold State.setCapture
  split
  · exact refused_keeps ..
  · refine granted_keeps _ ?_ (by simp [State.configureCapture])
    unfold State.configureCapture
    exact (State.Keeps.trans (.of_pst (by exact id)) (State.flowAll_keeps _)).trans (State.notifyIf_keeps ..)

end Sys2Proof.Machine
end

section
/-! Every step keeps every invariant, leaves the queue and takes nothing back (O2, O4 to O8, O10, O11). -/

namespace Sys2Proof.Machine

open Sys2Proof

/-! ## Reset (R24, R48, R72, R92, R122, R137, R159, R175) -/

theorem State.reset_group (g : Fin 64) : State.reset.group g = Group.powerOn := ATU.powerOn_group g

theorem State.reset_line (l : Fin 4) : State.reset.line l = Line.powerOn := by
  fin_cases l <;> rfl

theorem State.reset_timeOk : State.reset.timeOk := by
  refine ⟨?_, ?_, ?_, ?_, ?_, ?_, ?_, ?_, ?_⟩
  all_goals decide

theorem State.reset_boundOk : State.reset.boundOk := by decide

theorem State.reset_linesOk : State.reset.linesOk := fun l => by
  rw [State.reset_line]
  exact Line.powerOn_ok

theorem State.reset_agendaOk : State.reset.sqm.agendaOk :=
  ⟨List.Pairwise.nil, List.Pairwise.nil, fun _ h => nomatch h⟩

theorem State.reset_groupsOk : State.reset.groupsOk := ATU.powerOn_ok

theorem State.reset_storeOk : State.reset.storeOk :=
  ⟨Nat.zero_le _, Nat.zero_le _, le_rfl, by decide, Nat.zero_le _, trivial⟩

theorem State.reset_evidenceOk : State.reset.evidenceOk := by decide

theorem State.reset_chainsOk : State.reset.chainsOk := by decide

/-- Settles O4, block by block. -/
theorem resetIsSound : Obligations.ResetIsSound :=
  ⟨State.reset_timeOk, State.reset_boundOk, State.reset_linesOk, State.reset_storeOk, State.reset_agendaOk,
    ⟨by decide, State.reset_groupsOk⟩, State.reset_evidenceOk, State.reset_chainsOk⟩

/-- Settles O3, from the power-on value of each block. -/
theorem resetValues : Obligations.ResetValues := by
  refine ⟨by decide, by decide, fun l => ?_, by decide, ⟨fun g => ?_, fun a => ?_, rfl⟩, by decide, fun c => ?_,
    by decide, by decide⟩
  · rw [State.reset_line]; decide
  · rw [State.reset_group]; rfl
  · fin_cases a <;> rfl
  · cases c <;> exact ⟨rfl, rfl⟩

/-- Rails and oscillator. -/
theorem State.Keeps.of_supply {s : State} {r33 r09 osc : Bool} :
    s.Keeps { s with rail33 := r33, rail09 := r09, osc := osc } :=
  ⟨⟨id, id, id, id, id, id, id, rfl, [], rfl⟩, id⟩

theorem State.powerOn_keeps (s : State) : s.Keeps s.powerOn :=
  ⟨⟨fun _ => State.reset_timeOk, fun _ => State.reset_boundOk, fun _ => State.reset_linesOk,
    fun _ => State.reset_agendaOk, fun _ => State.reset_groupsOk, fun _ => State.reset_evidenceOk,
    fun _ => State.reset_chainsOk, rfl, [], rfl⟩, fun _ => State.reset_storeOk⟩

/-! ## The ways in which a command is taken -/

/-- The outcome is a next state, and every invariant is kept. -/
def KeepsNext (s : State) (o : Host.Outcome State Fault Refusal) : Prop := ∃ t : State, o = .next t ∧ s.Keeps t

theorem keepsNext_of {s t : State} (h : s.Keeps t) : KeepsNext s (.next t) := ⟨t, rfl, h⟩

section
variable {s : State} {k : State → State}

theorem portedIO_keeps (hk : ∀ v : State, v.Keeps (k v)) : KeepsNext s (portedIO s k) :=
  keepsNext_of (.ite (fun _ => s.actIO_keeps hk) fun _ => .refl s)

theorem windowed_keeps (hk : ∀ v : State, v.Keeps (k v)) : KeepsNext s (windowed s k) :=
  keepsNext_of (.ite (fun _ => s.act_keeps hk) fun _ => .refl s)

theorem linked_keeps (hk : ∀ v : State, v.Keeps (k v)) : KeepsNext s (linked s k) :=
  keepsNext_of (.ite (fun _ => s.act_keeps hk) fun _ => .refl s)

theorem windowedIO_keeps (hk : ∀ v : State, v.Keeps (k v)) : KeepsNext s (windowedIO s k) :=
  keepsNext_of (.ite (fun _ => s.actIO_keeps hk) fun _ => .refl s)

theorem ticked_keeps (hk : ∀ v : State, v.Keeps (k v)) : KeepsNext s (ticked s k) :=
  keepsNext_of (.ite (fun _ => s.act_keeps hk) fun _ => .refl s)

theorem tickedIO_keeps (hk : ∀ v : State, v.Keeps (k v)) : KeepsNext s (tickedIO s k) :=
  keepsNext_of (.ite (fun _ => s.actIO_keeps hk) fun _ => .refl s)

end

theorem State.active_of_controlSlot {s : State} {code off : Nat} {h : SlotHead}
    (hs : s.controlSlot code = some (off, h)) : s.ctl.ctx.state = .active := by
  unfold State.controlSlot at hs
  split at hs
  · next off' h' hat =>
    split at hs
    · exact State.active_of_atSlot hat
    · exact nomatch hs
  · exact nomatch hs

theorem State.answer_keeps {s : State} {a : Answer} (block : BitVec 64) (off : Nat) (h : SlotHead) (body : Nat)
    (ha : Answer.Keeps s a) (hact : s.ctl.ctx.state = .active) : s.Keeps (State.answer block off h body a) := by
  refine ha.state.trans (((State.post_keeps _ _).trans (State.countControl_keeps _)).trans
    (State.afterSlot_keeps _ _ ?_))
  show a.state.ctl.ctx.state = .active
  rw [ha.ctl, hact]

theorem takeControl_keeps {s : State} (code body : Nat) {owner : State → Answer}
    (ho : ∀ v : State, Answer.Keeps v (owner v)) : KeepsNext s (takeControl s code body owner) := by
  refine tickedIO_keeps fun v => ?_
  split
  · next hs => exact State.answer_keeps _ _ _ _ (ho v) (State.active_of_controlSlot hs)
  · exact .refl v

theorem State.mayTakeEvent_of_eventSlot {s : State} {code off : Nat} {h : SlotHead}
    (hs : s.eventSlot code = some (off, h)) : s.mayTakeEvent = true := by
  unfold State.eventSlot at hs
  split at hs
  · split at hs
    · next hm => exact (Bool.and_eq_true_iff.mp hm).1
    · exact nomatch hs
  · exact nomatch hs

theorem takeEngine_keeps {s : State} (code : Nat) (kind : EngineKind) (group : Byte) (payload : List Byte)
    (ok : SlotHead → Bool) : KeepsNext s (takeEngine s code kind group payload ok) := by
  refine tickedIO_keeps fun v => ?_
  split
  · next hs =>
    obtain ⟨ha, hroom⟩ := State.active_of_mayTakeEvent (State.mayTakeEvent_of_eventSlot hs)
    refine .ite (fun _ => v.left_keeps.trans (State.takeEvent_keeps _ _ _ ?_ ?_)) fun _ =>
      State.refuseEvent_keeps _ _ _ ha
    · simpa using ha
    · simpa using hroom
  · exact .refl v

/-! ## Commands whose effect has cases -/

theorem execOscillatorStop_keeps (s : State) : KeepsNext s (execOscillatorStop s) := by
  unfold execOscillatorStop
  split
  · exact tickedIO_keeps fun v => v.closePeriod_keeps.trans .of_supply
  · exact keepsNext_of .of_supply

theorem execSupplyOutOfRange_keeps (rail : Rail) (s : State) : KeepsNext s (execSupplyOutOfRange rail s) := by
  cases rail <;> exact keepsNext_of (s.powerOn_keeps.trans .of_supply)

theorem execFull_keeps (s : State) : KeepsNext s (execFull s) :=
  keepsNext_of (.ite (fun _ => s.powerOn_keeps.trans (.of_port ⟨[], rfl⟩)) fun _ => .refl s)

/-- A change of DU that leaves I, C, E, the settings and the counts as they are. -/
theorem State.setDU_keeps {s : State} {du : DU} (hi : du.i = s.du.i) (hc : du.c = s.du.c)
    (hst : du.steering = s.du.steering) (he : du.e = s.du.e) (hg : du.goodRun = s.du.goodRun)
    (hb : du.badRun = s.du.badRun) : s.Keeps { s with du := du } :=
  .of_time (fun h => by simpa only [State.timeOk, hi, hc, hst] using h)
    fun h => by simpa only [State.boundOk, he, hg, hb] using h

theorem DU.frameEvent_same (du : DU) (data : List Byte) (how : RefEnd) (own : Nat) :
    (du.frameEvent data how own).i = du.i ∧ (du.frameEvent data how own).c = du.c
      ∧ (du.frameEvent data how own).steering = du.steering ∧ (du.frameEvent data how own).e = du.e
      ∧ (du.frameEvent data how own).goodRun = du.goodRun ∧ (du.frameEvent data how own).badRun = du.badRun := by
  unfold DU.frameEvent
  split
  · cases how <;> exact ⟨rfl, rfl, rfl, rfl, rfl, rfl⟩
  · exact ⟨rfl, rfl, rfl, rfl, rfl, rfl⟩

theorem execRefFrameEnd_keeps (data : List Byte) (how : RefEnd) (s : State) :
    KeepsNext s (execRefFrameEnd data how s) := by
  refine ticked_keeps fun v => .ite (fun _ => ?_) fun _ => .refl v
  obtain ⟨h1, h2, h3, h4, h5, h6⟩ := DU.frameEvent_same v.du data how v.clock.own
  exact State.setDU_keeps h1 h2 h3 h4 h5 h6

theorem execFrameEnd_keeps (l : Fin 4) (data : List Byte) (bad : Bool) (how : FrameEnd) (s : State) :
    KeepsNext s (execFrameEnd l data bad how s) := by
  refine ticked_keeps fun v => ?_
  split
  · exact v.endFrame_keeps ..
  · next hf =>
    refine .ite (fun _ => State.setLine_keeps fun h => ?_) fun _ => .refl v
    obtain ⟨h1, h2, h3, -, h5⟩ := h
    exact ⟨h1, h2, h3, fun hs => absurd hs (by simp [hf]), h5⟩

theorem execResponseSent_keeps (l : Fin 4) (s : State) : KeepsNext s (execResponseSent l s) := by
  refine ticked_keeps fun v => ?_
  split
  · exact .refl v
  · next r rest ha _ =>
    have hl : v.Keeps (v.setLine l (Line.choose { v.line l with acks := rest })) :=
      State.setLine_keeps fun h => Line.chooseRest_ok (l := v.line l) h (by simp [ha]) (v.line l).flowDue
    exact hl.trans (.of_port ⟨[_], rfl⟩)
  · exact .refl v

theorem execFlowSymbolSent_keeps (l : Fin 4) (s : State) : KeepsNext s (execFlowSymbolSent l s) := by
  refine ticked_keeps fun v => .ite (fun _ => ?_) fun _ => .refl v
  have hl : v.Keeps (v.setLine l (Line.choose { v.line l with flowDue := false })) :=
    State.setLine_keeps fun h => Line.chooseRest_ok h le_rfl false
  exact hl.trans (.of_port ⟨[_], rfl⟩)

theorem execFrameStart_keeps (l : Fin 4) (s : State) : KeepsNext s (execFrameStart l s) :=
  ticked_keeps fun v => .ite (fun h => State.startFrame_keeps (Bool.and_eq_true_iff.mp h).1) fun _ => .refl v

theorem execLinkUp_keeps (l : Fin 4) (s : State) : KeepsNext s (execLinkUp l s) :=
  ticked_keeps fun v => .ite (fun _ => .refl v) fun _ =>
    (State.setLine_keeps Line.linkUp_ok).trans (State.notify_keeps ..)

theorem execLinkDown_keeps (l : Fin 4) (why : LinkLoss) (s : State) : KeepsNext s (execLinkDown l why s) :=
  ticked_keeps fun v => .ite
    (fun _ => (State.setLine_keeps (Line.linkDown_ok why)).trans (State.notify_keeps ..)) fun _ => .refl v

/-- A pulse held or dropped. -/
theorem State.setPulse_keeps (s : State) (c : CheckInput) (p : Option Pulse) :
    s.Keeps (s.setCheck c { s.check c with pulse := p }) := State.setCheck_keeps fun h => h

theorem execCheckRisingTransition_keeps (c : CheckInput) (s : State) :
    KeepsNext s (execCheckRisingTransition c s) :=
  ticked_keeps fun v => .ite (fun _ => v.acted_keeps.trans (State.setPulse_keeps ..)) fun _ => .refl v

theorem execCheckPulseDropped_keeps (c : CheckInput) (s : State) : KeepsNext s (execCheckPulseDropped c s) :=
  ticked_keeps fun v => .ite (fun _ => .refl v) fun _ => v.setPulse_keeps ..

theorem execSlotHeadRead_keeps (c : Chain) (h : SlotHead) (s : State) : KeepsNext s (execSlotHeadRead c h s) := by
  refine portedIO_keeps fun v => .ite (fun hw => ?_) fun _ => .refl v
  have ha := State.active_of_walking hw
  split
  · exact State.controlHead_keeps _ _ ha
  · exact State.eventHead_keeps _ _ ha
  · exact .refl v

theorem execWriteBackComplete_keeps (s : State) : KeepsNext s (execWriteBackComplete s) := by
  refine portedIO_keeps fun v => ?_
  split
  · exact .ite (fun _ => v.sendWrites_keeps.trans (State.completeWriteBack_keeps ..)) fun _ => .refl v
  · exact .refl v

theorem execBlockStateWriteComplete_keeps (c : Chain) (s : State) :
    KeepsNext s (execBlockStateWriteComplete c s) := by
  refine portedIO_keeps fun v => ?_
  split
  · split
    · refine .ite (fun _ => ?_) fun _ => .refl v
      have h (b : Bool) := v.sendWrites_keeps.trans (State.notifyIf_keeps _ b (finishedCause c))
      exact .ite (fun _ => (h _).trans (State.leaveFinished_keeps ..)) fun _ => h _
    · exact .refl v
  · exact .refl v

theorem execRecordPlace_keeps (s : State) : KeepsNext s (execRecordPlace s) := by
  refine portedIO_keeps fun v => .ite (fun _ => ?_) fun _ => .refl v
  split
  · next hr => exact .ite (fun _ => State.placeRecord_keeps _ hr) fun _ => v.closeBlock_keeps ..
  · exact .refl v

theorem execCaptureDoneComplete_keeps (s : State) : KeepsNext s (execCaptureDoneComplete s) := by
  refine portedIO_keeps fun v => ?_
  split
  · refine .ite (fun _ => ?_) fun _ => .refl v
    exact ((v.sendWrites_keeps.trans (State.dropPlaced_keeps (by simp))).trans (State.notifyIf_keeps ..)).trans (State.leaveCapture_keeps _)
  · exact .refl v

theorem execDmaWriteFailed_keeps (f : FailedWrite) (s : State) : KeepsNext s (execDmaWriteFailed f s) :=
  keepsNext_of (.ite (fun _ => s.settleRest_keeps.trans (State.keep_keeps fun v =>
    .ite (fun _ => (v.sendFirst_keeps _).trans (State.writeFault_keeps _ _)) fun _ => .refl v)) fun _ => .refl s)

theorem execAtuTimer_keeps {s t : State} {due : Bool} (h : s.Keeps t) :
    KeepsNext s (.next (if s.powered && s.osc && due then t.promise .cls else s)) :=
  keepsNext_of (.ite (fun _ => h.trans (State.promise_keeps _ _)) fun _ => .refl s)

/-! ## Every command, and a step -/

/-- Every command answers a next state and keeps every invariant. -/
theorem exec_keeps (i : Instr) (s : State) : KeepsNext s (exec i s) := by
  cases i with
  | powerOn => exact keepsNext_of (s.powerOn_keeps.trans .of_supply)
  | conventionalReset => exact keepsNext_of s.powerOn_keeps
  | supplyOutOfRange rail => exact execSupplyOutOfRange_keeps rail s
  | full => exact execFull_keeps s
  | oscillatorStop => exact execOscillatorStop_keeps s
  | oscillatorReturn => exact keepsNext_of .of_supply
  | oscillatorPeriod => exact tickedIO_keeps fun v => v.closePeriod_keeps.trans (State.advance_keeps _)
  | refSyncGained =>
    exact ticked_keeps fun v => .ite (fun _ => .refl v) fun _ => State.setDU_keeps rfl rfl rfl rfl rfl rfl
  | refSyncLost why =>
    exact ticked_keeps fun v => .ite (fun _ => State.setDU_keeps rfl rfl rfl rfl rfl rfl) fun _ => .refl v
  | refFrameEnd data how => exact execRefFrameEnd_keeps data how s
  | marker =>
    exact ticked_keeps fun v => .ite (fun _ => v.acted_keeps.trans (State.latchMarker_keeps _)) fun _ => .refl v
  | missingMarkerExpiry =>
    exact ticked_keeps fun v => .ite (fun _ => v.acted_keeps.trans (State.missingSecond_keeps _)) fun _ => .refl v
  | actionInstant => exact ticked_keeps fun v => .ite (fun _ => v.takeAction_keeps) fun _ => .refl v
  | holdoverSecond => exact ticked_keeps fun v => .ite (fun _ => v.holdoverSecond_keeps) fun _ => .refl v
  | linkUp l => exact execLinkUp_keeps l s
  | linkDown l why => exact execLinkDown_keeps l why s
  | frameStart l => exact execFrameStart_keeps l s
  | frameEnd l data bad how => exact execFrameEnd_keeps l data bad how s
  | responseSent l => exact execResponseSent_keeps l s
  | flowSymbolSent l => exact execFlowSymbolSent_keeps l s
  | release => exact tickedIO_keeps State.releaseNext_keeps
  | callOpenTimer g => exact execAtuTimer_keeps (s.runCallOpen_keeps ..)
  | closeWindowTimer g => exact execAtuTimer_keeps (s.runWindow_keeps ..)
  | closeTimer g => exact execAtuTimer_keeps (s.runClose_keeps ..)
  | alarmTimer a => exact execAtuTimer_keeps (s.runAlarm_keeps ..)
  | attestBoundary =>
    exact ticked_keeps fun v => .ite (fun _ => (v.emitBoundary_keeps _).trans (State.promise_keeps _ _))
      fun _ => .refl v
  | checkRisingTransition c => exact execCheckRisingTransition_keeps c s
  | checkPulseDropped c => exact execCheckPulseDropped_keeps c s
  | checkEdgeRecognized c =>
    exact ticked_keeps fun v => .ite (fun _ => v.acted_keeps.trans (State.recognizeEdge_keeps ..)) fun _ => .refl v
  | checkSecondJudged => exact ticked_keeps fun v => .ite (fun _ => v.judgeSecond_keeps) fun _ => .refl v
  | flushTimerExpiry => exact tickedIO_keeps State.flush_keeps
  | blockHeaderRead c h =>
    exact portedIO_keeps fun v => .ite (fun hw => State.enterHeader_keeps h
      (State.active_of_walking (Bool.and_eq_true_iff.mp hw).1)) fun _ => .refl v
  | nextAddressRead c a =>
    exact portedIO_keeps fun v => .ite (fun hw => State.followNext_keeps a
      (State.active_of_walking (Bool.and_eq_true_iff.mp hw).1)) fun _ => .refl v
  | slotHeadRead c h => exact execSlotHeadRead_keeps c h s
  | writeBackComplete => exact execWriteBackComplete_keeps s
  | blockStateWriteComplete c => exact execBlockStateWriteComplete_keeps c s
  | recordPlace => exact execRecordPlace_keeps s
  | captureDoneComplete => exact execCaptureDoneComplete_keeps s
  | dmaReadFailed c => exact portedIO_keeps fun v => .ite (fun _ => v.readFault_keeps c) fun _ => .refl v
  | dmaReadTimeout c => exact portedIO_keeps fun v => .ite (fun _ => v.readFault_keeps c) fun _ => .refl v
  | dmaWriteFailed f => exact execDmaWriteFailed_keeps f s
  | setTime t =>
    exact takeControl_keeps _ _ fun v =>
      have h := (v.atSetTime t).setTime_keeps t
      ⟨(v.atSetTime_keeps t).trans h.state, h.ctl.trans (v.atSetTime_ctl t)⟩
  | setSteering p k policy limit threshold => exact takeControl_keeps _ _ fun v => v.setSteering_keeps ..
  | setTraceLimits divergence floor rate => exact takeControl_keeps _ _ fun v => v.setTraceLimits_keeps ..
  | openLine index => exact takeControl_keeps _ _ fun v => v.setAdmission_keeps ..
  | closeLine index => exact takeControl_keeps _ _ fun v => v.setAdmission_keeps ..
  | setLineParams index a b => exact takeControl_keeps _ _ fun v => v.setLineParams_keeps ..
  | setSequence next run => exact takeControl_keeps _ _ fun v => v.setSequence_keeps ..
  | armGroup g m w x o c => exact takeControl_keeps _ _ fun v => v.arm_keeps ..
  | disarmGroup g => exact takeControl_keeps _ _ fun v => v.disarm_keeps g
  | setSeed seed => exact takeControl_keeps _ _ fun v => v.setSeed_keeps seed
  | setAlarm index period first => exact takeControl_keeps _ _ fun v => v.setAlarmEntry_keeps ..
  | cancelAlarm index => exact takeControl_keeps _ _ fun v => v.cancelAlarm_keeps index
  | setEvidenceParams period c0 c1 => exact takeControl_keeps _ _ fun v => v.setEvidence_keeps ..
  | queryStatus => exact takeControl_keeps _ _ fun v => granted_keeps _ v.acted_keeps (by simp)
  | setCaptureParams flush high low push all => exact takeControl_keeps _ _ fun v => v.setCapture_keeps ..
  | stamp g n payload => exact takeEngine_keeps ..
  | extend g => exact takeEngine_keeps ..
  | abandon g => exact takeEngine_keeps ..
  | start c => exact windowedIO_keeps fun v => State.command_keeps (v.startChain_keeps c)
  | resume c => exact windowedIO_keeps fun v => State.command_keeps (v.resumeChain_keeps c)
  | stop c => exact windowedIO_keeps fun v => State.command_keeps (v.stopChain_keeps c)
  | chainCommandUndefined c => exact windowed_keeps fun v => v.ignoreCommand_keeps c
  | chainAddrWrite c part value => exact windowed_keeps fun v => State.setCtx_keeps id fun _ => id
  | noticeClear v => exact windowed_keeps fun _ => .of_port ⟨[], rfl⟩
  | noticeEnableWrite x => exact windowed_keeps fun v => (v.message_keeps _).trans (.of_port ⟨[], rfl⟩)
  | vectorUnmasked =>
    exact linked_keeps fun v => .trans
      (.of_port (ep := { v.ep with masked := false, vectorPending := false }) ⟨[], rfl⟩) (State.message_keeps ..)
  | registerWriteIgnored w => exact keepsNext_of (.refl s)
  | lines => exact windowed_keeps fun v => v.resetLines_keeps.trans (State.notify_keeps ..)
  | auctions => exact windowed_keeps fun v => .ite (fun _ => v.auctionsEffect_keeps) fun _ => .refl v
  | chains =>
    exact windowed_keeps fun v => .ite
      (fun _ => .trans (.of_port (prt := { v.prt with chains := .waitDone }) ⟨[], rfl⟩) (State.settleScope_keeps _))
      fun _ => .refl v
  | chainsResetEffect => exact keepsNext_of (.ite (fun _ => s.takeScope_keeps) fun _ => .refl s)

/-- A step keeps the blocks: the command that it takes from the queue is of no invariant's concern. -/
theorem step_keeps {s t : State} (h : step s = .next t) :
    ∃ rest : List Instr, State.Keeps { s with pending := rest } t := by
  unfold step at h
  split at h
  · next hp => cases h; exact ⟨s.pending, .refl s⟩
  · next c rest _ =>
    obtain ⟨u, hu, hk⟩ := exec_keeps c { s with pending := rest }
    cases hu.symm.trans h
    exact ⟨rest, hk⟩

/-! ## The obligations -/

/-- Settles O2: the queue and what was sent, of `exec_keeps`. -/
theorem everyCommandAnswers : Obligations.EveryCommandAnswers := by
  intro c s
  obtain ⟨t, ht, hk⟩ := exec_keeps c s
  obtain ⟨sent, hw⟩ := hk.wire
  exact ⟨t, sent, ht, hk.pending, hw⟩

/-- Settles O1: both clauses are `step`'s own. -/
theorem stepTakesFront : Obligations.StepTakesFront :=
  ⟨fun c rest s h => by simp [step, h], fun s h => by simp [step, h]⟩

/-- Settles O5, by `step_keeps`. -/
theorem stepKeepsTime : Obligations.StepKeepsTime :=
  ⟨fun _ _ hs h => let ⟨_, hk⟩ := step_keeps h; hk.time hs, fun _ _ hs h => let ⟨_, hk⟩ := step_keeps h; hk.bound hs⟩

/-- Settles O6, by `step_keeps`. -/
theorem stepKeepsLines : Obligations.StepKeepsLines := fun _ _ hs h => let ⟨_, hk⟩ := step_keeps h; hk.lines hs

/-- Settles O7, by `step_keeps`. -/
theorem stepKeepsStore : Obligations.StepKeepsStore := fun _ _ hs h => let ⟨_, hk⟩ := step_keeps h; hk.store hs

/-- Settles O8, by `step_keeps`. -/
theorem stepKeepsAgenda : Obligations.StepKeepsAgenda := fun _ _ hs h => let ⟨_, hk⟩ := step_keeps h; hk.agenda hs

/-- Settles O9: the groups by `step_keeps`, the generator by `step_seeded`. -/
theorem stepKeepsAuctions : Obligations.StepKeepsAuctions := fun _ t ⟨hgen, hgroups⟩ h =>
  let ⟨_, hk⟩ := step_keeps h
  ⟨step_seeded hgen t h, hk.groups hgroups⟩

/-- Settles O10, by `step_keeps`. -/
theorem stepKeepsEvidence : Obligations.StepKeepsEvidence :=
  fun _ _ hs h => let ⟨_, hk⟩ := step_keeps h; hk.evidence hs

/-- Settles O11, by `step_keeps`. -/
theorem stepKeepsChains : Obligations.StepKeepsChains := fun _ _ hs h => let ⟨_, hk⟩ := step_keeps h; hk.chains hs

end Sys2Proof.Machine
end

section
/-! Power, the oscillator and the port (O12 to O14, O57 to O60). -/

namespace Sys2Proof.Machine

open Sys2Proof

/-! ## What a command needs to act at all (R188, R190) -/

/-- What a command cannot do without: nothing but its own effect on the supplies or the clock, power, the host's
sight of the window, the link, or the running oscillator. -/
inductive Need where
  | free | power | window | link | clock

/-- The need is met. -/
def State.meets (s : State) : Need → Bool
  | .free => true
  | .power => s.powered
  | .window => s.powered && s.ep.seen
  | .link => s.powered && s.ep.linkUp
  | .clock => s.powered && s.osc

def needOf : Instr → Need
  | .powerOn | .conventionalReset | .supplyOutOfRange _ | .oscillatorStop | .oscillatorReturn => .free
  | .blockHeaderRead _ _ | .nextAddressRead _ _ | .slotHeadRead _ _ | .writeBackComplete
  | .blockStateWriteComplete _ | .recordPlace | .captureDoneComplete | .dmaReadFailed _ | .dmaReadTimeout _
  | .dmaWriteFailed _ | .chainsResetEffect => .power
  | .start _ | .resume _ | .stop _ | .chainCommandUndefined _ | .chainAddrWrite _ _ _ | .noticeClear _
  | .noticeEnableWrite _ | .registerWriteIgnored _ | .lines | .auctions | .chains | .full => .window
  | .vectorUnmasked => .link
  | _ => .clock

theorem next_of_unmet {s t : State} {b : Bool} (h : b = false) :
    (.next (if b then t else s) : Host.Outcome State Fault Refusal) = .next s := by simp [h]

theorem atuTimer_of_unmet {s t : State} {due : Bool} (h : (s.powered && s.osc) = false) :
    (.next (if s.powered && s.osc && due then t else s) : Host.Outcome State Fault Refusal) = .next s := by simp [h]

/-- A command whose need is not met leaves the state as it is. -/
theorem exec_of_unmet {c : Instr} {s : State} (h : s.meets (needOf c) = false) : exec c s = .next s := by
  cases c
  case powerOn | conventionalReset | supplyOutOfRange | oscillatorStop | oscillatorReturn => exact nomatch h
  case registerWriteIgnored => rfl
  case callOpenTimer | closeWindowTimer | closeTimer | alarmTimer => exact atuTimer_of_unmet h
  all_goals exact next_of_unmet h

theorem State.meets_of_held {s : State} (h : s.powered = false) {n : Need} (hn : n ≠ .free) : s.meets n = false := by
  cases n
  case free => exact absurd rfl hn
  all_goals simp [State.meets, h]

theorem State.meets_of_stopped {s : State} (h : s.osc = false) : s.meets .clock = false := by simp [State.meets, h]

theorem State.meets_of_unseen {s : State} (h : s.ep.seen = false) : s.meets .window = false := by
  simp [State.meets, h]

theorem State.meets_of_down {s : State} (h : s.ep.linkUp = false) : s.meets .link = false := by
  simp [State.meets, h]

/-- Settles O12: the power-on values are `State.reset`'s own; a part held in power-on, and one that the host does
not see, by the need of each command. -/
theorem powerOnAndFull : Obligations.PowerOnAndFull := by
  refine ⟨fun s => ⟨rfl, rfl, rfl, rfl⟩, fun s hp hl hc => ?_, fun c s hp => ?_, fun c s hs => ?_⟩
  · have hseen : (s.powered && s.ep.seen) = true := by simp [hp, Endpoint.seen, hl, hc]
    exact congrArg Host.Outcome.next (if_pos hseen)
  · cases c
    case powerOn | conventionalReset | supplyOutOfRange | oscillatorStop | oscillatorReturn => exact True.intro
    all_goals exact exec_of_unmet (State.meets_of_held hp nofun)
  · have hseen := Endpoint.seen_eq_false hs
    cases c
    case vectorUnmasked => exact fun hl => exec_of_unmet (State.meets_of_down hl)
    case start | resume | stop | chainCommandUndefined | chainAddrWrite | noticeClear | noticeEnableWrite
        | registerWriteIgnored | lines | auctions | chains | full =>
      exact exec_of_unmet (State.meets_of_unseen hseen)
    all_goals exact True.intro

/-! ## The oscillator (R1, R190) -/

end Sys2Proof.Machine
end

section
/-! The time base's increment, the receivers and the lines (O14, O17, O25 to O28). -/

namespace Sys2Proof.Machine

open Sys2Proof

/-! ## INC (R4) -/

/-- The rounded quotient is the nearest integer (Conventions, "Rounding"). -/
theorem roundDiv_near (n : Int) {d : Nat} (hd : 0 < d) : 2 * (n - roundDiv n d * d).natAbs ≤ d := by
  have key (m : Nat) : 2 * ((m : Int) - ((2 * m + d) / (2 * d) : Nat) * d).natAbs ≤ d := by
    have h1 := Nat.div_add_mod (2 * m + d) (2 * d)
    have h2 := Nat.mod_lt (2 * m + d) (show 0 < 2 * d by omega)
    generalize (2 * m + d) / (2 * d) = q at h1 ⊢
    have h3 : ((2 * d : Nat) * q : Nat) = 2 * (q * d) := by ring
    have h4 : ((q : Int) * d) = ((q * d : Nat) : Int) := by push_cast; rfl
    rw [h4]
    omega
  have hk := key n.natAbs
  unfold roundDiv
  dsimp only
  generalize ((2 * n.natAbs + d) / (2 * d) : Nat) = q at hk
  have hneg : (-(q : Int)) * d = -((q : Int) * d) := neg_mul _ _
  split <;> omega

/-- Settles O14: INC is the nominal increment plus the rounded correction, no correction lies half way, since
5^9 does not divide the distance, and steps of C move the correction by more than 17 units. -/
theorem incrementFollowsCorrection : Obligations.IncrementFollowsCorrection := by
  have near (c : Int) : 2 * (c * 17179869184 - roundDiv (c * 17179869184) 1000000000 * 1000000000).natAbs
      ≤ 1000000000 := roundDiv_near (c * 17179869184) (d := 1000000000) (by decide)
  have value {c : Int} (h : c.natAbs ≤ 500000) :
      (incOf c : Int) = 17179869184 + roundDiv (c * 17179869184) 1000000000 := by
    have hb := incOf_bounds h
    unfold incOf at hb ⊢
    simp only [Config.nominalInc, Config.second, Nat.cast_ofNat] at hb ⊢
    omega
  refine ⟨fun c h => ⟨(incOf_bounds h).1, (incOf_bounds h).2, _, value h, ?_⟩, fun c d hc hd hlt => ?_⟩
  · have := near c
    omega
  · have h1 := near c
    have h2 := near d
    have h3 := value hc
    have h4 := value hd
    omega

/-! ## The reference receiver (R25, R27) -/

theorem Leap.ofCode_isNone : ∀ n : Nat, (Leap.ofCode n).isNone = decide (2 < n)
  | 0 | 1 | 2 => rfl
  | n + 3 => by simp [Leap.ofCode]

theorem Quality.ofCode_isNone : ∀ n : Nat, (Quality.ofCode n).isNone = decide (3 < n)
  | 0 | 1 | 2 | 3 => rfl
  | n + 4 => by simp [Quality.ofCode]

theorem Leap.code_ofCode {n : Nat} (h : n ≤ 2) : ((Leap.ofCode n).getD .none).code = n := by
  interval_cases n <;> rfl

theorem Quality.code_ofCode {n : Nat} (h : n ≤ 3) : ((Quality.ofCode n).getD .primary).code = n := by
  interval_cases n <;> rfl

/-- A frame's verdict as the statements spell it. -/
theorem refVerdict_eq (data : List Byte) (how : RefEnd) : refVerdict data how =
    if data.length ≠ 24 ∨ how ≠ .frameEnd then .length
    else if (crc16 (data.take 22)).toNat ≠ ofBe (data.drop 22) then .crc
    else if 2 < byteAt data 8 ∨ 3 < byteAt data 9 then .format
    else .correct := by
  unfold refVerdict
  by_cases h : data.length ≠ 24 ∨ how ≠ .frameEnd
  · rw [if_pos h, if_pos h]
  · have hl : data.length = 24 := by tauto
    have h22 : slice data 22 2 = data.drop 22 := List.take_of_length_le (by simp [hl])
    rw [if_neg h, if_neg h, h22, show slice data 0 22 = data.take 22 from rfl, Leap.ofCode_isNone,
      Quality.ofCode_isNone]
    simp

/-- The fields of a frame whose verdict is CORRECT are those of 10.7. -/
theorem refFields_of_correct {data : List Byte} {how : RefEnd} (h : refVerdict data how = .correct) :
    (refFields data).leap.code = byteAt data 8 ∧ (refFields data).quality.code = byteAt data 9 := by
  rw [refVerdict_eq] at h
  split at h
  · nomatch h
  · split at h
    · nomatch h
    · split at h
      · nomatch h
      · next hn => exact ⟨Leap.code_ofCode (by omega), Quality.code_ofCode (by omega)⟩

/-- Settles O17, command by command, from the effect each has on DU. -/
theorem referenceReceiver : Obligations.ReferenceReceiver := by
  refine ⟨fun s hr hs => ?_, fun s why hr hs => ?_, fun s data how hr hs hd => ?_, fun s data how hr hs hd => ?_,
    fun s hp ho => ?_⟩
  · refine (ticked_of_ready hr _).trans ?_
    simp [hs, DU.gainSync]
  · refine (ticked_of_ready hr _).trans ?_
    cases why <;> simp [hs, DU.loseSync]
  · refine ⟨refFields data, (ticked_of_ready hr _).trans ?_, fun hv => ?_⟩
    · rw [← refVerdict_eq]
      cases how <;> simp [hs, hd, DU.frameEvent, DU.endFrame, RefEnd.leaves]
    · rw [← refVerdict_eq] at hv
      exact ⟨rfl, rfl, rfl, (refFields_of_correct hv).1, (refFields_of_correct hv).2, rfl⟩
  · refine (ticked_of_ready hr _).trans ?_
    have same : s.du = { s.du with receiver := .discarding } := hd ▸ rfl
    have hevent (own : Nat) : s.du.frameEvent data how own = s.du.endDiscard how := if_pos hd
    dsimp only
    rw [if_pos hs, hevent]
    cases how
    case frameEnd | frameStart => rfl
    all_goals exact congrArg (fun du => Host.Outcome.next { s with du := du }) same
  · refine ⟨fun hs => ?_, fun hs => ?_⟩
    all_goals simp [State.refHears, hp, ho, DU.hear, hs]

/-! ## Lines (R49 to R53) -/

/-- Settles O25: each command is the line's own effect, and a symbol heard the receiver's. -/
theorem linkAndFrameStart : Obligations.LinkAndFrameStart := by
  refine ⟨⟨fun s l hr hu => ?_, fun s l why hr hu => ?_⟩, fun s l hr hu hf => ⟨fun ho => ?_, fun ho => ?_⟩,
    fun s l hp ho => ⟨fun hu => ?_, fun hu => ?_⟩⟩
  · refine (ticked_of_ready hr _).trans ?_
    simp [hu, Line.linkUp]
  · refine (ticked_of_ready hr _).trans ?_
    cases hf : (s.line l).frame <;> cases why <;> simp [hu, hf, Line.linkDown, Counters.abort, satAdd,
      Config.count32, Nat.add_comm]
  · refine (ticked_of_ready hr _).trans ?_
    have hl : (s.left.line l).opened = true := by rw [s.left_signals.lines l]; exact ho
    simp [hu, hf, State.startFrame, ho, Line.begin, hl]
  · refine (ticked_of_ready hr _).trans ?_
    simp [hu, hf, State.startFrame, ho, Line.begin]
  · refine ⟨by simp [State.lineHears, hp, ho, Line.hear, hu], fun h hne => ?_⟩
    cases h
    case idle => exact absurd rfl hne
    all_goals simp [State.lineHears, hp, ho, Line.hear, hu]
  · simp [State.lineHears, hp, ho, Line.hear, hu]

/-! ## Frames (R52 to R59) -/

/-- The tests of a frame's bytes, as the statements spell them (R55 to R57). -/
theorem frameLengthOk_iff {data : List Byte} {malformed : Bool} {how : FrameEnd} :
    frameLengthOk data malformed how = true ↔ how = .eof ∧ malformed = false ∧ 8 ≤ data.length
      ∧ 8 ≤ ofBe (slice data 4 2) ∧ ofBe (slice data 4 2) ≤ 240
      ∧ data.length = 8 + ofBe (slice data 4 2) + 4 := by
  have hn : framePayloadLength data = ofBe (slice data 4 2) := rfl
  simp [frameLengthOk, hn, and_assoc]

theorem frameCrcOk_iff {data : List Byte} : frameCrcOk data = true ↔
    (crc32 (data.take (8 + ofBe (slice data 4 2)))).toNat
      = ofBe (slice data (8 + ofBe (slice data 4 2)) 4) := by
  simp only [frameCrcOk, framePayloadLength, beq_iff_eq]
  rfl

/-- The reasons of R55, in the order of the checks. -/
theorem Line.refusal_of {l : Line} {mark : FrameMark} {data : List Byte} {malformed : Bool} {how : FrameEnd}
    {reason : Refuse}
    (h : (mark = .closed ∧ reason = .closed)
        ∨ (mark ≠ .closed ∧ ¬ frameLengthOk data malformed how = true ∧ reason = .length)
        ∨ (mark ≠ .closed ∧ frameLengthOk data malformed how = true ∧ ¬ frameCrcOk data = true ∧ reason = .crc)
        ∨ (mark ≠ .closed ∧ frameLengthOk data malformed how = true ∧ frameCrcOk data = true
            ∧ frameKind data = 0 ∧ reason = .kind)
        ∨ (mark ≠ .closed ∧ frameLengthOk data malformed how = true ∧ frameCrcOk data = true
            ∧ frameKind data ≠ 0 ∧ (64 ≤ frameGroup data ∧ frameGroup data ≤ 254) ∧ reason = .group)
        ∨ (mark ≠ .closed ∧ frameLengthOk data malformed how = true ∧ frameCrcOk data = true
            ∧ frameKind data ≠ 0 ∧ ¬ (64 ≤ frameGroup data ∧ frameGroup data ≤ 254) ∧ 32 ≤ l.fifo.length
            ∧ reason = .full)) :
    l.refusal mark data malformed how = some reason := by
  unfold Line.refusal
  rcases h with ⟨hm, rfl⟩ | ⟨hm, hl, rfl⟩ | ⟨hm, hl, hc, rfl⟩ | ⟨hm, hl, hc, hk, rfl⟩
    | ⟨hm, hl, hc, hk, hg, rfl⟩ | ⟨hm, hl, hc, hk, hg, hf, rfl⟩
  · rw [if_pos hm]
  · rw [if_neg hm, if_pos (by simpa using hl)]
  · rw [if_neg hm, if_neg (by simpa using hl), if_pos (by simpa using hc)]
  · rw [if_neg hm, if_neg (by simpa using hl), if_neg (by simpa using hc), if_pos hk]
  · rw [if_neg hm, if_neg (by simpa using hl), if_neg (by simpa using hc), if_neg hk, if_pos hg]
  · rw [if_neg hm, if_neg (by simpa using hl), if_neg (by simpa using hc), if_neg hk, if_neg hg, if_pos hf]

theorem Line.refusal_none {l : Line} {mark : FrameMark} {data : List Byte} {malformed : Bool} {how : FrameEnd}
    (hm : mark ≠ .closed) (hl : frameLengthOk data malformed how = true) (hc : frameCrcOk data = true)
    (hk : frameKind data ≠ 0) (hg : ¬ (64 ≤ frameGroup data ∧ frameGroup data ≤ 254)) (hf : l.fifo.length < 32) :
    l.refusal mark data malformed how = none := by
  unfold Line.refusal
  rw [if_neg hm, if_neg (by simpa using hl), if_neg (by simpa using hc), if_neg hk, if_neg hg,
    if_neg (by simpa [Config.fifoDepth] using hf)]

/-- A frame's end where a frame is in progress. -/
theorem exec_frameEnd {s : State} {l : Fin 4} {mark : FrameMark} {data : List Byte} {malformed : Bool}
    {how : FrameEnd} (hr : s.ready) (hf : (s.line l).frame = some mark) :
    exec (.frameEnd l data malformed how) s = .next (s.endFrame l mark data malformed how) := by
  refine (ticked_of_ready hr _).trans ?_
  simp [hf]

/-- What an answer does to the transmitter: an idle becomes one that a response has joined (R62). -/
theorem Line.respond_tx {l : Line} {r : Response} (h : (l.respond r).tx ≠ l.tx) :
    l.tx = .idle ∧ (l.respond r).tx = .joined := by
  unfold Line.respond at h ⊢
  dsimp only at h ⊢
  split at h
  · next hj => exact ⟨hj.1, if_pos hj⟩
  · exact absurd rfl h

/-- Settles O26: the first check that fails is the reason, and the line is refused for it. -/
theorem frameRefused : Obligations.FrameRefused := by
  intro s l mark data malformed how hr hf n lengthOk crcOk reason hwhy c up
  let x0 := (s.line l).frameOver how
  have hreason : x0.refusal mark data malformed how = some reason := by
    have hl : frameLengthOk data malformed how = true ↔ lengthOk := frameLengthOk_iff
    have hc : frameCrcOk data = true ↔ crcOk := frameCrcOk_iff
    refine Line.refusal_of ?_
    rw [hl, hc]
    exact hwhy
  have hexec : exec (.frameEnd l data malformed how) s = .next (s.setLine l (x0.refuse (frameTag data) reason)) := by
    rw [exec_frameEnd hr hf]
    unfold State.endFrame
    dsimp only
    rw [hreason]
  refine ⟨_, hexec, ?_, ?_, ?_, ?_⟩
  · unfold Line.refuse
    dsimp only
    split <;> rfl
  · have hcount : (x0.refuse (frameTag data) reason).counters = c.refuse reason := by
      unfold Line.refuse
      dsimp only
      split <;> rfl
    rw [hcount]
    cases reason <;> simp [Counters.refuse, satAdd, Config.count32, up]
  · unfold Line.refuse
    dsimp only
    split
    · next h => exact (if_pos h).symm
    · next h => exact (if_neg h).symm
  · unfold Line.refuse
    dsimp only
    split
    · exact fun h => Line.respond_tx (l := { x0 with counters := x0.counters.refuse reason }) h
    · exact fun h => absurd rfl h

/-- The last replacement of a line counts. -/
theorem State.setLine_setLine (s : State) (l : Fin 4) (x y : Line) : (s.setLine l x).setLine l y = s.setLine l y := by
  fin_cases l <;> rfl

/-- An urgent kind is a kind that is not 0 (R59). -/
theorem Line.urgent_of_kind {l : Line} {k : Nat} (hk : k ≠ 0) :
    l.urgent k = (decide (k = l.urgentA) || decide (k = l.urgentB)) := by
  unfold Line.urgent
  rw [Bool.eq_iff_iff]
  simp only [Bool.or_eq_true, Bool.and_eq_true, bne_iff_ne, beq_iff_eq, decide_eq_true_eq]
  constructor
  · rintro (⟨-, h⟩ | ⟨-, h⟩)
    · exact .inl h.symm
    · exact .inr h.symm
  · rintro (h | h)
    · exact .inl ⟨h ▸ hk, h.symm⟩
    · exact .inr ⟨h ▸ hk, h.symm⟩

theorem Line.evalFlow_flowDue_iff (l : Line) (fill high low : Nat) :
    (l.evalFlow fill high low).flowDue = true ↔
      l.flowDue = true ∨ (l.up = true ∧ (l.evalFlow fill high low).hold ≠ l.hold) := by
  simp [Line.evalFlow]

/-- Settles O27: no check fails, so the entry joins the FIFO and the line evaluates its flow state. -/
theorem frameAccepted : Obligations.FrameAccepted := by
  refine ⟨fun s l stamp cls data hr hf => ?_, fun s l data malformed how hr hf hhow => ?_⟩
  · intro n h8 h240 hlen hcrc hkind hgroup hroom urgent entry
    let y : Line := ((s.line l).frameOver .eof).accept entry
    have hentry : ((s.line l).frameOver .eof).entry stamp cls data = entry := by
      have htag : frameTag data = ofBe (slice data 2 2) := if_neg (by omega)
      have hurgent : ((s.line l).frameOver .eof).urgent (frameKind data) = urgent := Line.urgent_of_kind hkind
      unfold Line.entry
      rw [htag, hurgent]
      rfl
    have hnone : ((s.line l).frameOver .eof).refusal (.stamped stamp cls) data false .eof = none :=
      Line.refusal_none nofun (frameLengthOk_iff.2 ⟨rfl, rfl, by omega, h8, h240, hlen⟩) (frameCrcOk_iff.2 hcrc)
        hkind hgroup hroom
    refine ⟨y.evalFlow s.pst.records.length s.pst.params.high s.pst.params.low, ?_, ?_, ?_,
      Line.evalFlow_flowDue_iff y _ _ _⟩
    · rw [exec_frameEnd hr hf]
      unfold State.endFrame
      dsimp only
      rw [hnone]
      dsimp only
      rw [hentry]
      rw [State.flowLine, State.setLine_line, State.setLine_setLine]
      rfl
    · simp [y, Line.evalFlow, Line.accept, Line.frameOver, satAdd, Config.count32]
    · simp [y, Line.evalFlow, Line.nextHold, Line.accept, Line.frameOver, Config.fifoGo, Config.fifoHold]
  · refine (ticked_of_ready hr _).trans ?_
    simp [hf, hhow]

/-! ## The return direction (R61, R62, R64) -/

/-- Settles O28: each command is the line's own effect with what it sends. -/
theorem returnDirection : Obligations.ReturnDirection := by
  refine ⟨fun s l r rest hr hu htx hacks => ?_, fun s l hr hu hdue htx => ?_, fun s l hr => ⟨fun htx => ?_, fun htx => ?_⟩⟩
  · refine (ticked_of_ready hr _).trans ?_
    cases h : (s.line l).tx
    case idle => exact absurd h htx
    all_goals cases r <;> cases hd : (s.line l).flowDue <;> cases rest <;>
      simp [hacks, Line.choose, hu, hd, Response.bytes, u8]
  · refine (ticked_of_ready hr _).trans ?_
    cases h : (s.line l).acks <;> simp [hu, hdue, htx, Line.choose, h]
  · refine (ticked_of_ready hr _).trans ?_
    simp [htx]
  · refine (ticked_of_ready hr _).trans ?_
    simp [htx]

end Sys2Proof.Machine
end

section
/-! The requests of the lines, of ATU, ATT and PST, and the timers (O40, O42 to O44, O46 to O48). -/

namespace Sys2Proof.Machine

open Sys2Proof

/-! ## An owner's answer -/

/-- From `s` to `u` all stays by which the answer of a control slot is written. -/
structure State.AnswersAs (s u : State) : Prop where
  ctl : u.ctl = s.ctl
  chains : u.prt.chains = s.prt.chains
  linkUp : u.ep.linkUp = s.ep.linkUp
  busMaster : u.ep.busMaster = s.ep.busMaster

theorem State.AnswersAs.refl (s : State) : s.AnswersAs s := ⟨rfl, rfl, rfl, rfl⟩

theorem State.AnswersAs.trans {s t u : State} (h : s.AnswersAs t) (k : t.AnswersAs u) : s.AnswersAs u :=
  ⟨k.ctl.trans h.ctl, k.chains.trans h.chains, k.linkUp.trans h.linkUp, k.busMaster.trans h.busMaster⟩

theorem State.left_answersAs (s : State) : s.AnswersAs s.left := ⟨by simp, by simp, by simp, by simp⟩
theorem State.acted_answersAs (s : State) : s.AnswersAs s.acted := ⟨by simp, by simp, by simp, by simp⟩

/-- A control slot taken by an owner whose answer is known. -/
theorem takeControl_of_answer {s u : State} {code off body : Nat} {h : SlotHead} {owner : State → Answer}
    {st : SlotStatus} {r : List Byte} (hs : s.requestAt code off h) (ho : owner s = ⟨u, st, r⟩)
    (hu : s.AnswersAs u) :
    takeControl s code body owner = .next (u.slotAnswered off h body r st) := by
  have := takeControl_of_requestAt hs body owner (by rw [ho]; exact hu.ctl) (by rw [ho]; exact hu.chains)
    (by rw [ho]; exact hu.linkUp) (by rw [ho]; exact hu.busMaster)
  rw [this, ho]

/-! ## Indices -/

theorem lineOf_eq {index : Byte} {l : Fin 4} (h : l.val = index.toNat) : lineOf index = some l := by
  unfold lineOf
  rw [dif_pos (h ▸ l.isLt)]
  exact congrArg some (Fin.ext h.symm)

theorem lineOf_none {index : Byte} (h : 3 < index.toNat) : lineOf index = none := dif_neg (by omega)

theorem alarmOf_eq {index : Byte} {a : Fin 8} (h : a.val = index.toNat) : alarmOf index = some a := by
  unfold alarmOf
  rw [dif_pos (h ▸ a.isLt)]
  exact congrArg some (Fin.ext h.symm)

theorem alarmOf_none {index : Byte} (h : 7 < index.toNat) : alarmOf index = none := dif_neg (by omega)

theorem groupOf_eq {n : Nat} {g : Fin 64} (h : g.val = n) : groupOf n = some g := by
  unfold groupOf
  rw [dif_pos (h ▸ g.isLt)]
  exact congrArg some (Fin.ext h.symm)

theorem groupOf_none {n : Nat} (h : 64 ≤ n) : groupOf n = none := dif_neg (by omega)

/-! ## The lines and the capture settings (R66 to R68, R172) -/

/-- The push set names no kind by its bits 0, 14 and 15 (R193). -/
theorem push_legal_iff (push : BitVec 16) : push &&& 0xC001#16 = 0#16 ↔
    push.getLsbD 0 = false ∧ push.getLsbD 14 = false ∧ push.getLsbD 15 = false := by
  constructor
  · intro h
    have bit (i : Nat) : (push &&& 0xC001#16).getLsbD i = false := by rw [h]; simp
    have h0 := bit 0
    have h14 := bit 14
    have h15 := bit 15
    simp only [BitVec.getLsbD_and, Bool.and_eq_false_iff] at h0 h14 h15
    exact ⟨h0.resolve_right (by decide), h14.resolve_right (by decide), h15.resolve_right (by decide)⟩
  · rintro ⟨h0, h14, h15⟩
    refine BitVec.eq_of_getLsbD_eq fun i hi => ?_
    rw [BitVec.getLsbD_and]
    by_cases hb : i = 0 ∨ i = 14 ∨ i = 15
    · rcases hb with rfl | rfl | rfl
      · rw [h0]; rfl
      · rw [h14]; rfl
      · rw [h15]; rfl
    · have hzero : (0xC001#16).getLsbD i = false := by interval_cases i <;> simp at hb ⊢
      rw [hzero, Bool.and_false, BitVec.getLsbD_zero]

/-- What `captureOf` reads. -/
theorem captureOf_eq (flush : BitVec 32) (high low push : BitVec 16) (notifyAll : Byte) :
    captureOf flush high low push notifyAll =
      if 1000 ≤ flush.toNat ∧ flush.toNat ≤ 10000000 ∧ 1 ≤ high.toNat
           ∧ high.toNat ≤ 1000 ∧ low.toNat < high.toNat
           ∧ push.getLsbD 0 = false ∧ push.getLsbD 14 = false ∧ push.getLsbD 15 = false then
        some { flush := flush.toNat, high := high.toNat, low := low.toNat, push := push,
               notifyAll := notifyAll != 0#8 }
      else none := by
  unfold captureOf
  simp only [push_legal_iff]
  rfl

/-- PENDING_HIGH is set where the high mark passes down through the fill (R162). -/
theorem State.notifyIf_notice {s : State} {b : Bool} {c : Cause} (h : b = true) :
    (s.notifyIf b c).prt.notice.getLsbD c.bit = true := by
  subst h
  show (s.notify c).prt.notice.getLsbD c.bit = true
  rw [State.notify_prt, BitVec.getLsbD_or]
  cases c <;> simp [Cause.mask, Cause.bit]

/-- Settles O48, owner by owner. -/
theorem lineAndCaptureSettings : Obligations.LineAndCaptureSettings := by
  refine ⟨fun s off h index a b => ⟨fun hi => ?_, fun l hl => ?_⟩, fun s off h flush high low push all hs => ?_⟩
  · have hnone := lineOf_none hi
    have admission (opened : Bool) : s.setAdmission index opened = refused s .range := by
      simp [State.setAdmission, hnone]
    refine ⟨fun hs => takeControl_refused hs _ _ _ (admission true),
      fun hs => takeControl_refused hs _ _ _ (admission false), fun hs => takeControl_refused hs _ _ _ ?_⟩
    simp [State.setLineParams, hnone]
  · have hsome := lineOf_eq hl
    intro x before
    have answers (y : Line) : s.AnswersAs (s.setLine l y) := ⟨rfl, rfl, rfl, rfl⟩
    have admission (opened : Bool) :
        s.setAdmission index opened = ⟨s.setLine l { x with opened := opened }, .ok, before⟩ := by
      simp only [State.setAdmission, hsome, granted]
      rfl
    refine ⟨fun hs => takeControl_of_answer hs (admission true) (answers _),
      fun hs => takeControl_of_answer hs (admission false) (answers _),
      fun hs => takeControl_of_answer hs ?_ (answers _)⟩
    simp only [State.setLineParams, hsome, granted]
    rfl
  · intro fits fill old run
    refine ⟨fun hn => takeControl_refused hs _ _ _ ?_, fun hf => ?_⟩
    · have hnone := (captureOf_eq flush high low push all).trans (if_neg hn)
      simp only [State.setCapture, hnone]
    · let x : CaptureParams := { flush := flush.toNat, high := high.toNat, low := low.toNat, push := push,
                                 notifyAll := all != 0#8 }
      have hanswer : s.setCapture flush high low push all
          = granted (s.configureCapture x) (old.bytes ++ leBytes 2 fill ++ pad 6) := by
        have hsome := (captureOf_eq flush high low push all).trans (if_pos hf)
        simp only [State.setCapture, hsome]
        rfl
      have hanswers : s.AnswersAs (s.configureCapture x) :=
        ⟨by simp [State.configureCapture], by simp [State.configureCapture], by simp [State.configureCapture],
          by simp [State.configureCapture]⟩
      refine ⟨s.configureCapture x, ?_, by simp [State.configureCapture, x], fun l => ?_, fun h1 h2 => ?_,
        fun hn => ?_, ?_⟩
      · refine (takeControl_of_answer hs hanswer hanswers).trans ?_
        simp [CaptureParams.bytes, flag, pad, List.replicate]
      · show ((s.configureCapture x).lines).get l = _
        rw [State.configureCapture, State.notifyIf_same _ _ _ |>.2.2.2.2.2.2.1]
        exact Quad.get_map _ _ _
      · exact State.notifyIf_notice (c := .pendingHigh) (by simp [fill, old, x] at *; omega)
      · have hb : (decide (s.pst.records.length < s.pst.params.high)
            && decide (x.high ≤ s.pst.records.length)) = false := by
          simpa [x, fill, old] using hn
        unfold State.configureCapture
        rw [hb]
        rfl
      · unfold State.configureCapture
        unfold State.notifyIf
        split <;> rfl

/-! ## The generator and the alarms (R105, R117, R118) -/

theorem hostInstant_eq (t : HostTime) : hostInstant t = ⟨t.sec.toNat, t.ns.toNat⟩ := rfl

/-- A first instant at or before now. -/
theorem State.past_iff (i : Instant) (v : State) :
    i.ble v.instant = true ↔ i.sec < v.tb.sec ∨ (i.sec = v.tb.sec ∧ i.ns ≤ v.tb.ns) := by
  simp [Instant.ble_iff, State.instant]

theorem State.armAlarm_answersAs (s : State) (a : Fin 8) (period : Nat) (first : Instant) :
    s.AnswersAs (s.armAlarm a period first) := by
  unfold State.armAlarm
  split
  · exact ⟨by simp, by simp, by simp, by simp⟩
  · exact ⟨by simp, by simp, by simp, by simp⟩

/-- Settles O43: the seed replaces the generator, and an alarm is armed or runs out at once. -/
theorem seedAndAlarm : Obligations.SeedAndAlarm := by
  refine ⟨fun s off h seed hs => takeControl_of_answer hs rfl ⟨rfl, rfl, rfl, rfl⟩,
    fun s off h index period first hs => ?_⟩
  intro run f v past
  refine ⟨fun hbad => ?_, fun a ha hf hp => ⟨fun hn => ?_, fun hn => ?_⟩⟩
  · refine takeControl_refused hs _ _ _ ?_
    unfold State.setAlarmEntry
    cases hi : alarmOf index with
    | none => rfl
    | some a =>
      have hlt : ¬ 7 < index.toNat := fun hlt => by simp [alarmOf_none hlt] at hi
      refine if_pos ?_
      have hbad' : 999999999 < first.ns.toNat ∨ 3600000 < period.toNat := hbad.resolve_left hlt
      simpa [hostTimeOk] using hbad'
  all_goals
    have hok : (!hostTimeOk first || decide (period.toNat > 3600000)) = false := by
      have hf' : first.ns.toNat ≤ 999999999 := hf
      simp [hostTimeOk, hf', hp]
    have hble := State.past_iff (hostInstant first) v
    have hanswer : s.setAlarmEntry index period first
        = granted (v.armAlarm a period.toNat (hostInstant first))
            (time16 ((effectiveOpen (hostInstant first) v.instant).at v.tb.epoch)
              ++ flag ((hostInstant first).ble v.instant) ++ pad 7) := by
      simp only [State.setAlarmEntry, alarmOf_eq ha, hok]
      rfl
    refine (takeControl_of_answer (u := v.armAlarm a period.toNat (hostInstant first)) hs hanswer (s.left_answersAs.trans (State.armAlarm_answersAs ..))).trans ?_
  · have hlater : (hostInstant first).ble v.instant = false := Bool.eq_false_iff.2 (hn ∘ hble.1)
    simp only [State.armAlarm, effectiveOpen, hlater, Bool.false_eq_true, if_false]
    rfl
  · have hnow : (hostInstant first).ble v.instant = true := hble.2 hn
    have hzero : (period = 0#32) = (period.toNat = 0) := by simp [BitVec.toNat_eq]
    simp only [State.armAlarm, effectiveOpen, hnow, if_true, State.runAlarm, State.setAlarm_alarm, hzero]
    have hset (x y : Option Alarm) : (v.setAlarm a x).setAlarm a y = v.setAlarm a y := by
      simp [State.setAlarm, Vector.set_set]
    rw [hset]
    rfl

/-- Settles O44: an entry that is present is cancelled after the work of the period. -/
theorem cancelAlarm : Obligations.CancelAlarm := by
  intro s off h index hs
  refine ⟨fun hi => takeControl_refused hs _ _ _ ?_, fun a ha => ⟨fun hn => ?_, fun hn => ?_⟩⟩
  · simp only [State.cancelAlarm, alarmOf_none hi]
  · refine takeControl_of_answer (u := s) hs ?_ (.refl s)
    simp [State.cancelAlarm, alarmOf_eq ha, hn, granted]
  · refine takeControl_of_answer (u := s.left.setAlarm a none) hs ?_
      (s.left_answersAs.trans ⟨rfl, rfl, rfl, rfl⟩)
    have hsome : (s.alarm a).isNone = false := by
      cases h : s.alarm a
      · exact absurd h hn
      · rfl
    simp only [State.cancelAlarm, alarmOf_eq ha, hsome, granted, flag]
    rfl

end Sys2Proof.Machine
end

section
/-! What an action instant leaves of the receivers, and the requests and commands that follow it (O18, O40, O42,
O46, O47). -/

namespace Sys2Proof.Machine

open Sys2Proof

/-! ## What an action instant leaves of the receivers -/

/-- What a check input holds by itself: the settings, the pulse under filtering and the last edge. -/
abbrev Check.holdsAs (x y : Check) : Prop :=
  y.enabled = x.enabled ∧ y.filter = x.filter ∧ y.limit = x.limit ∧ y.pulse = x.pulse

/-- From `s` to `t` own time stands, a judged second stays judged, and the reference receiver and the check inputs
hold what they held: so it is with an action instant. -/
structure State.ReceivesAs (s t : State) : Prop where
  own : t.clock.own = s.clock.own
  period : t.clock.period = s.clock.period
  carried : s.clock.carried = false → t.clock.carried = false
  present : t.du.present = s.du.present
  refOwn : t.du.refOwn = s.du.refOwn
  latch : t.du.latch = s.du.latch
  chk0 : s.att.chk0.holdsAs t.att.chk0
  chk1 : s.att.chk1.holdsAs t.att.chk1

theorem State.ReceivesAs.of_same {s t : State} (hc : t.clock = s.clock) (hd : t.du = s.du)
    (h0 : t.att.chk0 = s.att.chk0) (h1 : t.att.chk1 = s.att.chk1) : s.ReceivesAs t := by
  constructor
  all_goals simp [hc, hd, h0, h1, Check.holdsAs]

theorem State.ReceivesAs.refl (s : State) : s.ReceivesAs s := .of_same rfl rfl rfl rfl

theorem State.ReceivesAs.trans {s t u : State} (h : s.ReceivesAs t) (k : t.ReceivesAs u) : s.ReceivesAs u where
  own := k.own.trans h.own
  period := k.period.trans h.period
  carried := k.carried ∘ h.carried
  present := k.present.trans h.present
  refOwn := k.refOwn.trans h.refOwn
  latch := k.latch.trans h.latch
  chk0 := ⟨k.chk0.1.trans h.chk0.1, k.chk0.2.1.trans h.chk0.2.1, k.chk0.2.2.1.trans h.chk0.2.2.1,
    k.chk0.2.2.2.trans h.chk0.2.2.2⟩
  chk1 := ⟨k.chk1.1.trans h.chk1.1, k.chk1.2.1.trans h.chk1.2.1, k.chk1.2.2.1.trans h.chk1.2.2.1,
    k.chk1.2.2.2.trans h.chk1.2.2.2⟩

theorem State.ReceivesAs.ite {s a b : State} {c : Prop} [Decidable c] (ha : s.ReceivesAs a) (hb : s.ReceivesAs b) :
    s.ReceivesAs (if c then a else b) := by
  split
  · exact ha
  · exact hb

theorem State.ReceivesAs.times {f : State → State} (hf : ∀ s : State, s.ReceivesAs (f s)) (n : Nat) (s : State) :
    s.ReceivesAs (times f n s) := by
  induction n generalizing s with
  | zero => exact .refl s
  | succ n ih => exact (hf s).trans (ih _)

theorem State.ReceivesAs.check {s t : State} (h : s.ReceivesAs t) (k : CheckInput) : (s.check k).holdsAs (t.check k) := by
  cases k
  · exact h.chk0
  · exact h.chk1

theorem State.ReceivesAs.edgeDue {s t : State} (h : s.ReceivesAs t) (k : CheckInput) :
    t.edgeDue (t.check k) = s.edgeDue (s.check k) := by
  simp only [State.edgeDue, (h.check k).2.2.2, h.own]

theorem State.judgeCheck_holdsAs (s : State) (x : Check) : x.holdsAs (s.judgeCheck x) := by
  unfold State.judgeCheck
  split
  · exact ⟨rfl, rfl, rfl, rfl⟩
  · exact ⟨rfl, rfl, rfl, rfl⟩

theorem State.settleJudge_receivesAs (s : State) : s.ReceivesAs s.settleJudge :=
  .ite ⟨rfl, rfl, fun _ => rfl, rfl, rfl, rfl, s.judgeCheck_holdsAs _, s.judgeCheck_holdsAs _⟩ (.refl s)

theorem State.emitBoundary_receivesAs (s v : State) : s.ReceivesAs (s.emitBoundary v) :=
  ⟨rfl, rfl, id, rfl, rfl, rfl, ⟨rfl, rfl, rfl, rfl⟩, ⟨rfl, rfl, rfl, rfl⟩⟩

theorem State.settleAdvance_receivesAs (s v : State) : s.ReceivesAs (s.settleAdvance v) :=
  .ite (s.settleJudge_receivesAs.trans (State.emitBoundary_receivesAs _ v)) s.settleJudge_receivesAs

theorem State.afterMove_receivesAs (s : State) (pre post : Instant) (d : Int) : s.ReceivesAs (s.afterMove pre post d) := by
  have h : s.ReceivesAs (s.moveEvidence post) :=
    ⟨rfl, rfl, id, rfl, rfl, rfl, ⟨rfl, rfl, rfl, rfl⟩, ⟨rfl, rfl, rfl, rfl⟩⟩
  refine .ite (h.trans (.of_same ?_ ?_ ?_ ?_)) h
  all_goals simp

theorem State.placeCounter_receivesAs (s : State) (post : Instant) (frac epoch : Nat) :
    s.ReceivesAs (s.placeCounter post frac epoch) :=
  ⟨rfl, rfl, id, rfl, rfl, rfl, ⟨rfl, rfl, rfl, rfl⟩, ⟨rfl, rfl, rfl, rfl⟩⟩

theorem State.recordMove_receivesAs (s : State) (pre : Stamp) (cls : TraceClass) (theta : Int)
    (marker : Option Stamp) (body : ClockBody) : s.ReceivesAs (s.recordMove pre cls theta marker body) :=
  .of_same rfl rfl rfl rfl

theorem State.applyStep_receivesAs (s : State) (cls : TraceClass) (sec : Second) : s.ReceivesAs (s.applyStep cls sec) :=
  ((s.placeCounter_receivesAs ..).trans (State.recordMove_receivesAs ..)).trans (State.afterMove_receivesAs ..)

theorem State.applySet_receivesAs (s : State) (cls : TraceClass) (sec : Second) : s.ReceivesAs (s.applySet cls sec) := by
  have h0 : s.ReceivesAs (s.abandonRunning s.now cls) := .of_same (by simp) (by simp) (by simp) (by simp)
  have hmove (t : State) (post : Instant) : t.ReceivesAs (t.moveEvidence post) :=
    ⟨rfl, rfl, id, rfl, rfl, rfl, ⟨rfl, rfl, rfl, rfl⟩, ⟨rfl, rfl, rfl, rfl⟩⟩
  unfold State.applySet
  dsimp only
  refine .ite ((h0.trans (State.recordMove_receivesAs ..)).trans (hmove ..)) ?_
  exact ((h0.trans (State.placeCounter_receivesAs ..)).trans (State.recordMove_receivesAs ..)).trans
    (State.afterMove_receivesAs ..)

theorem State.moveTime_receivesAs (s : State) (cls : TraceClass) (sec : Second) (mv : Move) :
    s.ReceivesAs (s.moveTime cls sec mv) := by
  have h (d : Option Demand) : s.ReceivesAs { s with tb := { s.tb with demand := d } } := .of_same rfl rfl rfl rfl
  cases mv with
  | keep => exact .refl s
  | withdraw => exact h _
  | hold => exact h _
  | step => exact (h none).trans (State.applyStep_receivesAs ..)
  | set => exact (h none).trans (State.applySet_receivesAs ..)

theorem State.holdDemand_receivesAs (s : State) (newly : Bool) (sec : Second) : s.ReceivesAs (s.holdDemand newly sec) :=
  .ite (.of_same rfl rfl rfl rfl) (.refl s)

theorem State.handSecond_checks (s : State) (servo : Bool) (sec : Second) :
    (s.handSecond servo sec).att.chk0 = s.att.chk0 ∧ (s.handSecond servo sec).att.chk1 = s.att.chk1 := by
  unfold State.handSecond
  cases servo <;> cases sec.correct <;> exact ⟨rfl, rfl⟩

theorem State.workOf_receivesAs (s : State) (sec : Second) : s.ReceivesAs (s.workOf sec) := by
  have h0 : s.ReceivesAs (State.setInc { s with du := s.duAfter sec (s.moveOf sec) }) :=
    ⟨rfl, rfl, id, rfl, rfl, rfl, ⟨rfl, rfl, rfl, rfl⟩, ⟨rfl, rfl, rfl, rfl⟩⟩
  have h1 (t : State) (old : DState) : t.ReceivesAs (t.stateChanged old sec) :=
    .of_same (by simp) (by simp) (by simp) (by simp)
  have h2 (t : State) (old : TraceClass) (now : Stamp) (cls : TraceClass) : t.ReceivesAs (t.classChanged old now cls) :=
    .of_same (by simp) (by simp) (by simp) (by simp)
  have h3 (t : State) : t.ReceivesAs (t.adoptOffset sec) := .of_same (by simp) (by simp) (by simp) (by simp)
  have h4 (t : State) (servo : Bool) : t.ReceivesAs (t.handSecond servo sec) :=
    .of_same (by simp) (by simp) (t.handSecond_checks servo sec).1 (t.handSecond_checks servo sec).2
  exact (((((h0.trans (State.moveTime_receivesAs _ s.du.cls sec _)).trans (h1 _ s.du.state)).trans
    (State.holdDemand_receivesAs _ _ sec)).trans (h2 _ s.du.cls _ _)).trans (h3 _)).trans (h4 _ _)

theorem State.actOn_receivesAs (s : State) (sec : Second) : s.ReceivesAs (s.actOn sec) :=
  .ite ((s.settleAdvance_receivesAs _).trans (State.workOf_receivesAs ..)) (s.workOf_receivesAs sec)

theorem State.reading_receivesAs (s : State) : s.ReceivesAs s.reading :=
  ⟨rfl, rfl, id, rfl, rfl, rfl, ⟨rfl, rfl, rfl, rfl⟩, ⟨rfl, rfl, rfl, rfl⟩⟩

theorem State.takeAction_receivesAs (s : State) : s.ReceivesAs s.takeAction := by
  unfold State.takeAction
  split
  · next sec rest _ =>
    have h : s.ReceivesAs { s with du := { s.du with judged := rest } } :=
      ⟨rfl, rfl, id, rfl, rfl, rfl, ⟨rfl, rfl, rfl, rfl⟩, ⟨rfl, rfl, rfl, rfl⟩⟩
    exact (h.trans (State.actOn_receivesAs _ sec)).trans (State.reading_receivesAs _)
  · exact .refl s

theorem State.acted_receivesAs (s : State) : s.ReceivesAs s.acted := by
  have h : s.ReceivesAs (if s.actionDue then s.closeActions else s) :=
    .ite (.times (fun t => .ite t.takeAction_receivesAs (.refl t)) _ _) (.refl s)
  exact h.trans (State.reading_receivesAs _)

/-! ## Check inputs (R132 to R134) -/

/-- An input judges the second that has ended, as the statements spell it (R134). -/
theorem State.judgeCheck_eq (s : State) (x : Check) : s.judgeCheck x =
    if x.enabled then
      { x with
        missing := if x.watched ∧ ¬ (x.lastEpoch = some s.tb.epoch ∧ x.lastSec = s.clock.prev.sec)
          then min 65535 (x.missing + 1) else x.missing
        watched := true }
    else x := by
  unfold State.judgeCheck State.edgeSeen
  simp [satAdd, Config.count16, not_and_or, -not_and]

/-- Settles O46: a pulse that is due stays due over the action instant of its period. -/
theorem checkInputs : Obligations.CheckInputs := by
  refine ⟨fun s k hr => ?_, fun s k p hr hp hspan hc => ?_, fun s hr hc => ?_, fun s hr hc => ?_⟩
  · intro v
    have hv := s.acted_receivesAs
    refine ⟨fun he hd => ?_, fun he => ?_, fun hd => ?_⟩
    · refine (ticked_of_ready hr _).trans ?_
      have hpulse : ({ stamp := s.acted.now, riseOwn := s.acted.clock.own, filter := (s.acted.check k).filter } : Pulse)
          = { stamp := s.acted.now, riseOwn := s.clock.own, filter := (s.check k).filter } := by
        rw [(hv.check k).2.1, hv.own]
      simp only [he, hd, Bool.not_false, Bool.and_self, if_true, State.beginPulse]
      rw [hpulse]
    · refine (ticked_of_ready hr _).trans ?_
      simp [he]
    · refine (ticked_of_ready hr _).trans ?_
      simp [hd]
  · intro v x offset far now
    have hv := s.acted_receivesAs
    have hpulse : (v.check k).pulse = some p := (hv.check k).2.2.2.trans hp
    have hdue : s.edgeDue (s.check k) = true := by
      simpa [State.edgeDue, hp, ownSpan, Config.unit] using hspan
    have hdue' : v.edgeDue (v.check k) = true := (hv.edgeDue k).trans hdue
    have hjudge : v.settleJudge = v := if_neg (by rw [hv.carried hc]; simp)
    have hexec : exec (.checkEdgeRecognized k) s = .next (v.recognizeEdge k v.now) := by
      refine (ticked_of_ready hr _).trans ?_
      simp only [hdue, if_true, v]
    rw [hexec]
    unfold State.recognizeEdge
    simp only [hpulse, hdue', if_true, hjudge]
    simp [Check.recognize, checkOffset, satAdd, Config.count4, offset, far, x, now, Bool.beq_eq_decide_eq]
  · intro judged
    refine (ticked_of_ready hr _).trans ?_
    simp only [hc, if_true, State.judgeSecond, State.judgeCheck_eq]
    rfl
  · refine (ticked_of_ready hr _).trans ?_
    simp [hc]

end Sys2Proof.Machine
end

section
/-! A marker (O18). -/

namespace Sys2Proof.Machine

open Sys2Proof

/-! ## A marker (R26 to R34) -/

theorem ownSpan_eq (since now : Nat) : ownSpan since now = (now - since) / 4294967296 := by
  simp [ownSpan, Config.unit]

/-- The marker comes late: above 1,001,000,000 ns of own time from a PRESENT reference marker (R31). -/
def DU.lateMarker (du : DU) (own : Nat) : Bool :=
  du.present && (match du.refOwn with | some r => decide (ownSpan r own > Config.lateAbove) | none => false)

/-- What the latched frame makes of a marker that is neither early nor late (R31). -/
def DU.frameCause (du : DU) (own : Nat) : Option SecondCause :=
  match du.latch with
  | none => some .noFrame
  | some f =>
    match f.verdict with
    | .length => some .length
    | .crc => some .crc
    | .format => some .format
    | .correct =>
      if f.fields.quality = .unusable then some .unusable
      else if ownSpan f.endOwn own < Config.frameLead then some .lateFrame else none

theorem DU.badCause_eq (du : DU) (own : Nat) :
    du.badCause own = if du.lateMarker own = true then some .lateMarker else du.frameCause own := rfl

/-- The marker neither comes early nor late from its reference marker (R29, R31). -/
abbrev DU.onTime (du : DU) (own : Nat) : Prop :=
  du.present = false ∨ ∃ r, du.refOwn = some r ∧ 999000000 ≤ (own - r) / 4294967296
    ∧ (own - r) / 4294967296 ≤ 1001000000

theorem DU.not_early_of_onTime {du : DU} {own : Nat} (h : du.onTime own) : du.earlyMarker own = false := by
  rcases h with h | ⟨r, hr, h1, h2⟩
  · simp [DU.earlyMarker, h]
  · simp [DU.earlyMarker, hr, ownSpan_eq, h1]

theorem DU.not_late_of_onTime {du : DU} {own : Nat} (h : du.onTime own) : du.lateMarker own = false := by
  rcases h with h | ⟨r, hr, h1, h2⟩
  · simp [DU.lateMarker, h]
  · simp [DU.lateMarker, hr, ownSpan_eq, h2]

/-- What the five tests of R31 look at, as the statements spell it. -/
abbrev DU.failsBy (du : DU) (own : Nat) (cause : SecondCause) : Prop :=
  (du.present = true ∧ (∃ r, du.refOwn = some r ∧ 1001000000 < (own - r) / 4294967296) ∧ cause = .lateMarker)
    ∨ (du.onTime own ∧ du.latch = none ∧ cause = .noFrame)
    ∨ (du.onTime own ∧ ∃ f, du.latch = some f ∧
        ((f.verdict = .length ∧ cause = .length) ∨ (f.verdict = .crc ∧ cause = .crc)
          ∨ (f.verdict = .format ∧ cause = .format)
          ∨ (f.verdict = .correct ∧ f.fields.quality = .unusable ∧ cause = .unusable)
          ∨ (f.verdict = .correct ∧ f.fields.quality ≠ .unusable
              ∧ (own - f.endOwn) / 4294967296 < 1000000 ∧ cause = .lateFrame)))

/-- The first test of R31 that fails gives the cause. -/
theorem DU.badCause_of {du : DU} {own : Nat} {cause : SecondCause} (h : du.failsBy own cause) :
    du.earlyMarker own = false ∧ du.badCause own = some cause := by
  rw [DU.badCause_eq]
  rcases h with ⟨hp, ⟨r, hr, hl⟩, rfl⟩ | ⟨ht, hn, rfl⟩ | ⟨ht, f, hf, h⟩
  · refine ⟨?_, if_pos ?_⟩
    · have hlate : 999000000 ≤ (own - r) / 4294967296 := by omega
      simp [DU.earlyMarker, hr, ownSpan_eq, hlate]
    · simp [DU.lateMarker, hp, hr, ownSpan_eq, hl]
  · refine ⟨DU.not_early_of_onTime ht, ?_⟩
    simp [DU.not_late_of_onTime ht, DU.frameCause, hn]
  · refine ⟨DU.not_early_of_onTime ht, ?_⟩
    rw [if_neg (by simp [DU.not_late_of_onTime ht])]
    rcases h with ⟨hv, rfl⟩ | ⟨hv, rfl⟩ | ⟨hv, rfl⟩ | ⟨hv, hq, rfl⟩ | ⟨hv, hq, hs, rfl⟩
    · simp [DU.frameCause, hf, hv]
    · simp [DU.frameCause, hf, hv]
    · simp [DU.frameCause, hf, hv]
    · simp [DU.frameCause, hf, hv, hq]
    · simp [DU.frameCause, hf, hv, hq, ownSpan_eq, hs]

/-- A cause that a test of R31 gives is one of a bad second. -/
theorem DU.failsBy.bad {du : DU} {own : Nat} {cause : SecondCause} (h : du.failsBy own cause) :
    cause ≠ .goodConsistent ∧ cause ≠ .goodInconsistent := by
  rcases h with ⟨-, -, rfl⟩ | ⟨-, -, rfl⟩ | ⟨-, f, -, h⟩
  · exact ⟨nofun, nofun⟩
  · exact ⟨nofun, nofun⟩
  · rcases h with ⟨-, rfl⟩ | ⟨-, rfl⟩ | ⟨-, rfl⟩ | ⟨-, -, rfl⟩ | ⟨-, -, -, rfl⟩
    all_goals exact ⟨nofun, nofun⟩

/-- A marker that fails a test of R31. -/
theorem DU.judgeMarker_bad {du : DU} {now : Stamp} {own period : Nat} {cause : SecondCause}
    (he : du.earlyMarker own = false) (hb : du.badCause own = some cause) :
    du.judgeMarker now own period = DU.judgeBad { du with receiver := .outside } cause now own period := by
  have he' : DU.earlyMarker { du with receiver := .outside } own = false := he
  have hb' : DU.badCause { du with receiver := .outside } own = some cause := hb
  simp [DU.judgeMarker, he', hb']

/-- A marker that passes the tests of R31. -/
theorem DU.judgeMarker_good {du : DU} {f : FrameLatch} {now : Stamp} {own period : Nat} (ht : du.onTime own)
    (hf : du.latch = some f) (hv : f.verdict = .correct) (hq : f.fields.quality ≠ .unusable)
    (hs : 1000000 ≤ (own - f.endOwn) / 4294967296) :
    du.judgeMarker now own period = DU.judgeGood { du with receiver := .outside } f.fields now own period := by
  have he : DU.earlyMarker { du with receiver := .outside } own = false := DU.not_early_of_onTime ht
  have hb : DU.badCause { du with receiver := .outside } own = none := by
    have hl : DU.lateMarker { du with receiver := .outside } own = false := DU.not_late_of_onTime ht
    rw [DU.badCause_eq, hl]
    simp [DU.frameCause, hf, hv, hq, ownSpan_eq, hs]
  have good (du0 : DU) (h1 : du0.earlyMarker own = false) (h2 : du0.badCause own = none) (h3 : du0.latch = some f) :
      (if du0.earlyMarker own then du0.judgeEarly now period
        else match du0.badCause own, du0.latch with
          | some cause, _ => du0.judgeBad cause now own period
          | none, some f => du0.judgeGood f.fields now own period
          | none, none => du0.judgeBad .noFrame now own period) = du0.judgeGood f.fields now own period := by
    simp [h1, h2, h3]
  exact good { du with receiver := .outside } he hb hf

theorem exec_marker {s : State} (hr : s.ready) (hs : s.du.inSync = true) : exec .marker s = .next s.acted.latchMarker := by
  refine (ticked_of_ready hr _).trans ?_
  simp only [hs, if_true]

/-- A cause that counts as a bad second (R34). -/
theorem runCounts_bad {cause : SecondCause} (h1 : cause ≠ .goodConsistent) (h2 : cause ≠ .goodInconsistent)
    (good bad : Nat) : runCounts cause good bad = (0, min 65535 (bad + 1)) := by
  cases cause
  case goodConsistent => exact absurd rfl h1
  case goodInconsistent => exact absurd rfl h2
  all_goals rfl

/-- The counts after a good second (R34). -/
theorem runCounts_good (c : Prop) [Decidable c] (good bad : Nat) :
    runCounts (if c then .goodConsistent else .goodInconsistent) good bad
      = (if c then min 65535 (good + 1) else 1, 0) := by
  split <;> rfl

/-- Settles O18: what the receiver holds stays over the action instant, so the tests find in `u` what they find in
`s`. -/
theorem marker : Obligations.Marker := by
  refine ⟨fun s r hr hs hp href hspan => ?_, fun s hr hs => ?_⟩
  · intro u bad
    have hu : s.ReceivesAs u := s.acted_receivesAs
    have he : DU.earlyMarker { u.du with receiver := .outside } u.clock.own = true := by
      simp [DU.earlyMarker, hu.present, hu.refOwn, hp, href, hu.own, ownSpan_eq, hspan]
    rw [exec_marker hr hs]
    have hjudge : u.du.judgeMarker u.now u.clock.own u.clock.period
        = DU.judgeEarly { u.du with receiver := .outside } u.now u.clock.period := if_pos he
    exact congrArg (fun du => Host.Outcome.next { u with du := du }) hjudge
  · intro u onTime reference
    have hu : s.ReceivesAs u := s.acted_receivesAs
    refine ⟨fun cause hwhy => ?_, fun f ht hf hv hq hspan => ?_⟩
    · intro bad expected
      have hfails : u.du.failsBy u.clock.own cause := by
        unfold DU.failsBy DU.onTime
        rw [hu.present, hu.refOwn, hu.latch, hu.own]
        exact hwhy
      have hcounts : runCounts cause u.du.goodRun u.du.badRun = (0, bad) :=
        runCounts_bad hfails.bad.1 hfails.bad.2 _ _
      have hjudge := DU.judgeMarker_bad (now := u.now) (period := u.clock.period) (DU.badCause_of hfails).1
        (DU.badCause_of hfails).2
      rw [exec_marker hr hs]
      refine (congrArg (fun du => Host.Outcome.next { u with du := du }) hjudge).trans ?_
      unfold DU.judgeBad
      dsimp only
      rw [hcounts]
      rfl
    · intro consistent good now d
      have honTime : u.du.onTime u.clock.own := by
        unfold DU.onTime
        rw [hu.present, hu.refOwn, hu.own]
        exact ht
      have hlatch : u.du.latch = some f := hu.latch.trans hf
      have hjudge := DU.judgeMarker_good (now := u.now) (period := u.clock.period) honTime hlatch hv hq
        (by rw [hu.own]; exact hspan)
      have hseen : u.du.seenNow = ⟨f.fields.quality, f.fields.accuracy, f.fields.leap, f.fields.source⟩ := by
        simp [DU.seenNow, hlatch, hv]
      rw [exec_marker hr hs]
      refine (congrArg (fun du => Host.Outcome.next { u with du := du }) hjudge).trans ?_
      unfold DU.judgeGood
      dsimp only
      rw [runCounts_good, hu.period, ← hseen]
      rfl

end Sys2Proof.Machine
end

section
/-! Timers that run out, the requests of groups and of the evidence (O40, O42, O47), and the port's registers
(O57, O58). -/

namespace Sys2Proof.Machine

open Sys2Proof

/-! ## Timers that run out (R96, R101, R103, R107, R119) -/

theorem State.workDue_iff (s : State) :
    s.workDue = true ↔ s.actionDue = true ∨ s.missingDue = true ∨ s.holdoverDue = true := by
  simp [State.workDue, or_assoc]

/-- An ATU timer's command, where its timer is due. -/
theorem exec_atuTimer {s : State} {due : Bool} {t : State} (hp : s.powered = true) (ho : s.osc = true)
    (hd : due = true) :
    (.next (if s.powered && s.osc && due then t else s) : Host.Outcome State Fault Refusal) = .next t := by
  simp [hp, ho, hd]

/-- Settles O40: each command runs its own timer, and what it has read is marked. -/
theorem auctionTimers : Obligations.AuctionTimers := by
  refine ⟨fun s g hp ho => ⟨exec_atuTimer hp ho, exec_atuTimer hp ho, fun drawn hd hg => ?_⟩, fun s => ?_,
    fun s a x hp ho ha hd => ?_⟩
  · refine (exec_atuTimer hp ho hd).trans ?_
    simp only [State.runClose, hg]
    rfl
  · refine ⟨fun hn => State.promise_eq ?_ _, fun hd => ?_⟩
    · exact Bool.eq_false_iff.2 (hn ∘ s.workDue_iff.1)
    · have hwork := s.workDue_iff.2 hd
      refine ⟨_, if_pos hwork, ?_⟩
      split
      · next h => exact ⟨le_rfl, h⟩
      · next h => exact ⟨(not_le.1 h).le, le_rfl⟩
  · refine (exec_atuTimer hp ho hd).trans ?_
    simp only [State.runAlarm, ha]
    rfl

/-! ## The requests of groups (R97, R98, R100) -/

/-- A group takes no new schedule, as the statements spell it. -/
theorem State.engaged_iff (u : State) (g : Fin 64) : u.engaged g = true ↔
    (u.group g).phase = .call ∨ (u.group g).phase = .closing
      ∨ ∃ e ∈ u.sqm.agenda, e.body.isGroup = true ∧ e.group = g.val := by
  simp [State.engaged, Group.running, State.busy, or_assoc]

theorem scheduleOk_iff (m : Byte) (w x : BitVec 32) (callOpen close : HostTime) :
    scheduleOk m w x callOpen close = true ↔
      callOpen.ns.toNat ≤ 999999999 ∧ close.ns.toNat ≤ 999999999 ∧ w.toNat ≤ 300000 ∧ 1 ≤ x.toNat
        ∧ x.toNat ≤ 3600000 ∧ m.toNat ≤ 15 ∧ (callOpen.sec.toNat < close.sec.toNat
          ∨ (callOpen.sec.toNat = close.sec.toNat ∧ callOpen.ns.toNat < close.ns.toNat)) := by
  simp [scheduleOk, hostTimeOk, Instant.blt_iff, hostInstant_eq, and_assoc]

theorem State.armGroup_answersAs (s : State) (g : Fin 64) (m w x : Nat) (callOpen close : Instant) :
    s.AnswersAs (s.armGroup g m w x callOpen close) := by
  unfold State.armGroup
  dsimp only
  split
  · exact ⟨by simp, by simp, by simp, by simp⟩
  · exact ⟨by simp, by simp, by simp, by simp⟩

/-- The call-open timer of a group that is known runs out. -/
theorem State.runCallOpen_of_group {s : State} {g : Fin 64} {x : Group} {epoch : Nat} {cls : TraceClass}
    {late passed : Bool} (h : s.group g = x) :
    s.runCallOpen g epoch cls late passed = (s.setGroup g { x with callTimer := false }).create
      (x.callOpen.at epoch) cls g.val late passed (.phase late) := by
  subst h
  rfl

/-- Settles O42: the tests in their order, then the schedule armed or cleared. -/
theorem groupRequests : Obligations.GroupRequests := by
  refine ⟨fun s off h group m w x open_ close hs => ⟨fun hg => ?_, fun g hg => ?_⟩,
    fun s off h group hs => ⟨fun hg => ?_, fun g hg => ?_⟩⟩
  · refine takeControl_of_answer (u := s) hs ?_ (.refl s)
    simp [State.arm, groupOf_none hg, armRefused, pad, u8, GroupPhase.code, List.replicate]
  · intro v old phase refused closed o c fits past e entry armed result
    have hclosed (u : State) : u.engaged g = true ↔ closed u := u.engaged_iff g
    have hfits : scheduleOk m w x open_ close = true ↔ fits := scheduleOk_iff ..
    have hpast (i : Instant) : i.ble v.instant = true ↔ past i := State.past_iff i v
    have he : effectiveOpen o v.instant = e := by
      unfold effectiveOpen
      simp only [hpast]
      rfl
    have harm : s.arm group m w x open_ close =
        if s.engaged g then armRefused s .state (s.group g).phase
        else if !scheduleOk m w x open_ close then armRefused s .range (s.group g).phase
        else v.armNow g m.toNat w.toNat x.toNat o c := by
      simp only [State.arm, groupOf_eq hg]
      rfl
    have hnow (h1 : ¬ closed s) (h2 : fits) : s.arm group m w x open_ close = v.armNow g m.toNat w.toNat x.toNat o c := by
      rw [harm, if_neg (by rwa [hclosed]), if_neg (by simpa using hfits.2 h2)]
    have hgranted (h1 : ¬ closed s) (h2 : fits) (h3 : ¬ closed v) (h4 : ¬ past c) : s.arm group m w x open_ close
        = granted (v.armGroup g m.toNat w.toNat x.toNat o c) result := by
      rw [hnow h1 h2, State.armNow, if_neg (by rwa [hclosed]), if_neg (by rwa [hpast])]
      rw [he]
      rfl
    have hanswers := s.left_answersAs.trans (State.armGroup_answersAs v g m.toNat w.toNat x.toNat o c)
    refine ⟨fun h1 => ?_, fun h1 h2 => ?_, fun h1 h2 h3 => ?_, fun h1 h2 h3 h4 => ?_, fun h1 h2 h3 h4 h5 => ?_,
      fun h1 h2 h3 h4 h5 => ?_⟩
    · refine takeControl_of_answer (u := s) hs (harm.trans (if_pos ((hclosed s).2 h1))) (.refl s)
    · refine takeControl_of_answer (u := s) hs (harm.trans ?_) (.refl s)
      rw [if_neg (by rwa [hclosed]), if_pos (by simpa using fun hok => h2 (hfits.1 hok))]
      rfl
    · refine takeControl_of_answer (u := v) hs ((hnow h1 h2).trans ?_) s.left_answersAs
      exact if_pos ((hclosed v).2 h3)
    · refine takeControl_of_answer (u := v) hs ((hnow h1 h2).trans ?_) s.left_answersAs
      rw [State.armNow, if_neg (by rwa [hclosed]), if_pos ((hpast c).2 h4)]
      rfl
    · refine (takeControl_of_answer hs (hgranted h1 h2 h3 h4) hanswers).trans ?_
      have hlate : o.ble v.instant = false := Bool.eq_false_iff.2 (h5 ∘ (hpast o).1)
      unfold State.armGroup
      simp only [he, hlate, Bool.false_eq_true, if_false]
      rfl
    · refine (takeControl_of_answer hs (hgranted h1 h2 h3 h4) hanswers).trans ?_
      have hlate : o.ble v.instant = true := (hpast o).2 h5
      have hnowStamp : e.at v.tb.epoch = v.now := congrArg (fun i => i.at v.tb.epoch) (if_pos h5 : e = v.instant)
      have hgroup : armed.group g = entry := by simp [armed]
      have hrun := State.runCallOpen_of_group (epoch := v.tb.epoch) (cls := v.du.cls) (late := true) (passed := false)
        hgroup
      have harmed : v.armGroup g m.toNat w.toNat x.toNat o c = armed.runCallOpen g v.tb.epoch v.du.cls true false := by
        unfold State.armGroup
        simp only [he, hlate, if_true]
        rfl
      rw [harmed, hrun]
      rw [show entry.callOpen.at v.tb.epoch = v.now from hnowStamp]
  · exact takeControl_refused hs _ _ _ (by simp only [State.disarm, groupOf_none hg])
  · intro v phase closed
    have hclosed (u : State) : u.engaged g = true ↔ closed u := u.engaged_iff g
    have hdisarm : s.disarm group =
        if s.engaged g then Machine.refused s .state
        else if (s.group g).phase = .idle then granted s (u8 GroupPhase.idle.code ++ pad 7)
        else v.disarmNow g := by
      simp only [State.disarm, groupOf_eq hg]
      rfl
    refine ⟨fun h1 => ?_, fun h1 h2 => ?_, fun h1 h2 h3 => ?_, fun h1 h2 h3 => ?_⟩
    · exact takeControl_of_answer (u := s) hs (hdisarm.trans (if_pos ((hclosed s).2 h1))) (.refl s)
    · refine takeControl_of_answer (u := s) hs (hdisarm.trans ?_) (.refl s)
      rw [if_neg (by rwa [hclosed]), if_pos h2]
      rfl
    · refine takeControl_of_answer (u := v) hs (hdisarm.trans ?_) s.left_answersAs
      rw [if_neg (by rwa [hclosed]), if_neg h2, State.disarmNow, if_pos ((hclosed v).2 h3)]
      rfl
    · refine takeControl_of_answer (u := v.disarmGroup g) hs (hdisarm.trans ?_)
        (s.left_answersAs.trans ⟨rfl, rfl, rfl, rfl⟩)
      rw [if_neg (by rwa [hclosed]), if_neg h2, State.disarmNow, if_neg (by rwa [hclosed])]
      rfl

/-! ## The requests of the evidence (R135, R136) -/

theorem CheckFilter.ofCode_eq {n : Nat} {f : CheckFilter} (h : f.code = n) : CheckFilter.ofCode n = some f := by
  subst h
  cases f <;> rfl

theorem CheckFilter.ofCode_none : ∀ {n : Nat}, 3 < n → CheckFilter.ofCode n = Option.none
  | 0, h | 1, h | 2, h | 3, h => absurd h (by decide)
  | n + 4, _ => rfl

/-- A check input's settings, if they are in range (R135). -/
theorem checkOf_eq {p : CheckParams} {f : CheckFilter} (hf : f.code = p.filter.toNat)
    (hl : 1 ≤ p.limit.toNat ∧ p.limit.toNat ≤ 1000000) : checkOf p = some (yes p.enable, f, p.limit.toNat) := by
  simp only [checkOf, CheckFilter.ofCode_eq hf, if_pos hl]

theorem checkOf_none {p : CheckParams} (h : ¬ (p.filter.toNat ≤ 3 ∧ 1 ≤ p.limit.toNat ∧ p.limit.toNat ≤ 1000000)) :
    checkOf p = none := by
  unfold checkOf
  by_cases h3 : 3 < p.filter.toNat
  · rw [CheckFilter.ofCode_none h3]
  · have hl : ¬ (1 ≤ p.limit.toNat ∧ p.limit.toNat ≤ 1000000) := fun hl => h ⟨by omega, hl⟩
    cases CheckFilter.ofCode p.filter.toNat <;> simp only [if_neg hl]

/-- A check input with new settings, as the statements spell it. -/
theorem Check.configure_eq (k : Check) (p : CheckParams) (f : CheckFilter) :
    k.configure (yes p.enable, f, p.limit.toNat) = { k with
      enabled := p.enable != 0#8, filter := f, limit := p.limit.toNat
      watched := if (p.enable != 0#8) = k.enabled then k.watched else false
      pulse := if p.enable = 0#8 then none else k.pulse } := by
  have hpulse : (if yes p.enable = true then k.pulse else none) = if p.enable = 0#8 then none else k.pulse := by
    by_cases h : p.enable = 0#8 <;> simp [yes, h]
  unfold Check.configure
  simp only [hpulse]
  rfl

theorem State.configureEvidence_answersAs (s : State) (period : Nat) (x0 x1 : Bool × CheckFilter × Nat) :
    s.AnswersAs (s.configureEvidence period x0 x1) :=
  have h : s.AnswersAs s.settleJudge := ⟨by simp, by simp, by simp, by simp⟩
  have h' (att : ATT) : s.AnswersAs { s.settleJudge with att := att } := ⟨h.ctl, h.chains, h.linkUp, h.busMaster⟩
  (h' _).trans (State.acted_answersAs _)

/-! ### The status snapshot (10.4) -/

theorem leBytes_length (n v : Nat) : (leBytes n v).length = n := by
  induction n generalizing v with
  | zero => rfl
  | succ n ih => simp [leBytes, ih]

theorem leSigned_length (n : Nat) (v : Int) : (leSigned n v).length = n := leBytes_length ..
theorem pad_length (n : Nat) : (pad n).length = n := List.length_replicate
theorem u8_length (n : Nat) : (u8 n).length = 1 := rfl
theorem flag_length (b : Bool) : (flag b).length = 1 := rfl
theorem timeWord_length (t : Stamp) : (timeWord t).length = 8 := by simp [timeWord, leBytes_length]
theorem time12_length (t : Stamp) : (time12 t).length = 12 := by simp [time12, timeWord_length, leBytes_length]
theorem Line.statusBytes_length (l : Line) : l.statusBytes.length = 4 := rfl

theorem Check.statusBytes_length (k : Check) : k.statusBytes.length = 16 := by
  simp [Check.statusBytes, flag_length, u8_length, pad_length, leBytes_length, leSigned_length]

theorem alarmStatusBytes_length (epoch : Nat) (a : Option Alarm) : (alarmStatusBytes epoch a).length = 24 := by
  cases a <;> simp [alarmStatusBytes, flag_length, pad_length, leBytes_length, time12_length]

/-- The 64 phase bytes. -/
def State.phaseBytes (s : State) : List Byte := s.atu.groups.toList.map fun g => BitVec.ofNat 8 g.phase.code

/-- The 192 alarm bytes. -/
def State.alarmBytes (s : State) : List Byte := s.atu.alarms.toList.flatMap fun a => alarmStatusBytes s.tb.epoch a

theorem State.phaseBytes_eq (s : State) : (s.atu.groups.toList.flatMap fun g => u8 g.phase.code) = s.phaseBytes :=
  List.map_eq_flatMap.symm

theorem State.phaseBytes_length (s : State) : s.phaseBytes.length = 64 := by simp [State.phaseBytes]

theorem State.alarmBytes_length (s : State) : s.alarmBytes.length = 192 := by
  simp [State.alarmBytes, List.length_flatMap, alarmStatusBytes_length]

/-- Bytes 0 to 23: now, the UTC offset and the held step. -/
def State.statusHead (s : State) : List Byte :=
  time12 s.now ++ leSigned 2 s.tb.utcOffset ++ flag s.tb.demand.isSome ++ pad 1
    ++ leSigned 8 (match s.tb.demand with | some d => d.theta | none => 0)

/-- Bytes 26 to 63: DU's counts, rates and last-seen values. -/
def State.statusDiscipline (s : State) : List Byte :=
  flag s.du.present ++ u8 s.du.seen.quality.code
    ++ leBytes 2 s.du.goodRun ++ leBytes 2 s.du.badRun ++ leSigned 8 s.du.lastOffset
    ++ leSigned 4 s.du.c ++ leSigned 4 s.du.i ++ leBytes 4 s.du.e ++ leBytes 4 s.du.seen.accuracy
    ++ leBytes 8 (s.du.expected.getD 0)

/-- Bytes 72 to 79: the run. -/
def State.statusRun (s : State) : List Byte := leBytes 4 s.sqm.run ++ flag s.sqm.exhausted ++ pad 3

/-- Bytes 360 to 415: the evidence. -/
def State.statusEvidence (s : State) : List Byte :=
  u8 s.att.period ++ pad 7 ++ timeWord s.att.periodStart ++ leBytes 8 s.att.nextBoundary
    ++ s.att.chk0.statusBytes ++ s.att.chk1.statusBytes

theorem State.statusHead_length (s : State) : s.statusHead.length = 24 := by
  simp [State.statusHead, time12_length, leSigned_length, flag_length, pad_length]

theorem State.statusDiscipline_length (s : State) : s.statusDiscipline.length = 38 := by
  simp [State.statusDiscipline, leSigned_length, flag_length, u8_length, leBytes_length]

theorem State.statusRun_length (s : State) : s.statusRun.length = 8 := by
  simp [State.statusRun, flag_length, pad_length, leBytes_length]

theorem State.statusEvidence_length (s : State) : s.statusEvidence.length = 56 := by
  simp [State.statusEvidence, u8_length, pad_length, leBytes_length, timeWord_length, Check.statusBytes_length]

/-- The snapshot in its parts. -/
theorem State.statusBytes_eq (s : State) : s.statusBytes =
    s.statusHead ++ ((u8 s.du.state.code ++ u8 s.du.cls.code) ++ (s.statusDiscipline ++ (leBytes 8 s.sqm.next
      ++ (s.statusRun ++ (leBytes 2 s.pst.records.length ++ (pad 6 ++ ((s.line 0).statusBytes
      ++ ((s.line 1).statusBytes ++ ((s.line 2).statusBytes ++ ((s.line 3).statusBytes
      ++ (s.phaseBytes ++ (s.alarmBytes ++ s.statusEvidence)))))))))))) := by
  unfold State.statusBytes
  rw [s.phaseBytes_eq]
  simp only [State.statusHead, State.statusDiscipline, State.statusRun, State.statusEvidence, State.alarmBytes,
    State.line, Quad.get, List.append_assoc] <;> rfl

/-- Past a part that ends at `n`, the bytes are those of the rest. -/
theorem drop_past {a l : List Byte} {n : Nat} (k : Nat) (h : a.length = n) : (a ++ l).drop (n + k) = l.drop k := by
  rw [← h, List.drop_append]
  simp

/-- What QUERY_STATUS says of the snapshot it writes. -/
theorem State.statusBytes_places (v : State) :
    v.statusBytes.length = 416
      ∧ v.statusBytes.take 15 = time12 v.now ++ leSigned 2 v.tb.utcOffset ++ [if v.tb.demand.isSome then 1 else 0]
      ∧ (v.statusBytes.drop 24).take 2 = [BitVec.ofNat 8 v.du.state.code, BitVec.ofNat 8 v.du.cls.code]
      ∧ (v.statusBytes.drop 64).take 8 = leBytes 8 v.sqm.next
      ∧ (v.statusBytes.drop 80).take 2 = leBytes 2 v.pst.records.length
      ∧ (∀ l : Fin 4, (v.statusBytes.drop (88 + 4 * l.val)).take 4 = (v.line l).statusBytes)
      ∧ (∀ g : Fin 64, v.statusBytes[104 + g.val]? = some (BitVec.ofNat 8 (v.group g).phase.code)) := by
  have hclass : (u8 v.du.state.code ++ u8 v.du.cls.code).length = 2 := rfl
  have hline (l : Line) : l.statusBytes.length = 4 := rfl
  rw [v.statusBytes_eq]
  have h24 (k : Nat) := drop_past (l := (u8 v.du.state.code ++ u8 v.du.cls.code) ++ (v.statusDiscipline
      ++ (leBytes 8 v.sqm.next
      ++ (v.statusRun ++ (leBytes 2 v.pst.records.length ++ (pad 6 ++ ((v.line 0).statusBytes
      ++ ((v.line 1).statusBytes ++ ((v.line 2).statusBytes ++ ((v.line 3).statusBytes
      ++ (v.phaseBytes ++ (v.alarmBytes ++ v.statusEvidence)))))))))))) k v.statusHead_length
  have h26 (k : Nat) := (h24 (2 + k)).trans (drop_past k hclass)
  have h64 (k : Nat) := (h26 (38 + k)).trans (drop_past k v.statusDiscipline_length)
  have h72 (k : Nat) := (h64 (8 + k)).trans (drop_past k (leBytes_length ..))
  have h80 (k : Nat) := (h72 (8 + k)).trans (drop_past k v.statusRun_length)
  have h88 (k : Nat) := (h80 (2 + (6 + k))).trans ((drop_past (6 + k) (leBytes_length ..)).trans
    (drop_past k (pad_length 6)))
  have h92 (k : Nat) := (h88 (4 + k)).trans (drop_past k (hline _))
  have h96 (k : Nat) := (h92 (4 + k)).trans (drop_past k (hline _))
  have h100 (k : Nat) := (h96 (4 + k)).trans (drop_past k (hline _))
  have h104 (k : Nat) := (h100 (4 + k)).trans (drop_past k (hline _))
  refine ⟨?_, ?_, ?_, ?_, ?_, fun l => ?_, fun g => ?_⟩
  · simp only [List.length_append, v.statusHead_length, u8_length, v.statusDiscipline_length, leBytes_length,
      v.statusRun_length, pad_length, hline, v.phaseBytes_length, v.alarmBytes_length, v.statusEvidence_length]
  · have h15 : (time12 v.now ++ leSigned 2 v.tb.utcOffset ++ flag v.tb.demand.isSome).length = 15 := by
      simp [time12_length, leSigned_length, flag_length]
    rw [List.take_append_of_le_length (by rw [v.statusHead_length]; decide), State.statusHead, List.append_assoc]
    exact List.take_left' h15
  · exact (congrArg (List.take 2) (h24 0)).trans (List.take_left' hclass)
  · exact (congrArg (List.take 8) (h64 0)).trans (List.take_left' (leBytes_length ..))
  · exact (congrArg (List.take 2) (h80 0)).trans (List.take_left' (leBytes_length ..))
  · match l with
    | 0 => exact (congrArg (List.take 4) (h88 0)).trans (List.take_left' (hline _))
    | 1 => exact (congrArg (List.take 4) (h92 0)).trans (List.take_left' (hline _))
    | 2 => exact (congrArg (List.take 4) (h96 0)).trans (List.take_left' (hline _))
    | 3 => exact (congrArg (List.take 4) (h100 0)).trans (List.take_left' (hline _))
  · have hdrop := congrArg (fun l : List Byte => l[g.val]?) (h104 0)
    rw [List.getElem?_drop] at hdrop
    refine hdrop.trans ?_
    rw [List.drop_zero, List.getElem?_append_left (by rw [v.phaseBytes_length]; exact g.isLt), State.phaseBytes,
      List.getElem?_map, Vector.getElem?_toList, Vector.getElem?_eq_getElem g.isLt]
    rfl

/-- Settles O47: the evidence settings after the judgement of the carry, and the places of the snapshot. -/
theorem evidenceAndStatus : Obligations.EvidenceAndStatus := by
  refine ⟨fun s off h period p0 p1 hs => ?_, fun s off h hs => ?_⟩
  · intro good fits run set first next
    refine ⟨fun hn => ?_, fun f0 f1 hf h0 h1 => ?_⟩
    · refine takeControl_refused hs _ _ _ ?_
      by_cases hg0 : good p0
      · by_cases hg1 : good p1
        · have hp : ¬ (1 ≤ period.toNat ∧ period.toNat ≤ 60) := fun hp => hn ⟨hp.1, hp.2, hg0, hg1⟩
          unfold State.setEvidence
          cases checkOf p0 <;> cases checkOf p1 <;> simp only [if_neg hp]
        · unfold State.setEvidence
          rw [checkOf_none hg1]
          cases checkOf p0 <;> rfl
      · unfold State.setEvidence
        rw [checkOf_none hg0]
    · obtain ⟨hp1, hp2, hg0, hg1⟩ := hf
      have hanswer : s.setEvidence period p0 p1 = granted
          (s.configureEvidence period.toNat (yes p0.enable, f0, p0.limit.toNat) (yes p1.enable, f1, p1.limit.toNat))
          (s.att.settingBytes ++ leBytes 8 (s.configureEvidence period.toNat (yes p0.enable, f0, p0.limit.toNat)
            (yes p1.enable, f1, p1.limit.toNat)).att.nextBoundary) := by
        unfold State.setEvidence
        rw [checkOf_eq h0 hg0.2, checkOf_eq h1 hg1.2]
        exact if_pos ⟨hp1, hp2⟩
      have hjudged : exec .checkSecondJudged s = .next s.settleJudge := ticked_of_ready hs.1 _
      refine ⟨s.settleJudge, hjudged, ?_⟩
      intro v
      have hv : s.configureEvidence period.toNat (yes p0.enable, f0, p0.limit.toNat) (yes p1.enable, f1, p1.limit.toNat)
          = v := by
        unfold State.configureEvidence
        dsimp only
        rw [Check.configure_eq, Check.configure_eq]
        have hatt : s.settleJudge.att.period = s.att.period ∧ s.settleJudge.att.nextBoundary = s.att.nextBoundary := by
          unfold State.settleJudge
          split <;> exact ⟨rfl, rfl⟩
        have hnext : (if period.toNat = s.settleJudge.att.period then s.settleJudge.att.nextBoundary
            else boundaryAfter s.settleJudge.instant period.toNat) = next := by
          rw [hatt.1, hatt.2]
          have hinstant : s.settleJudge.instant = s.instant := by simp [State.instant]
          rw [hinstant]
          simp only [next, first, boundaryAfter, Config.secondsWrap, State.instant, ge_iff_le, ← not_lt, ite_not]
        rw [hnext]
      refine ⟨?_, fun ha => ?_⟩
      · refine (takeControl_of_answer hs hanswer (State.configureEvidence_answersAs ..)).trans ?_
        rw [hv]
      · have hact : v = State.reading _ := State.acted_eq (by simpa [State.actionDue, s.settleJudge_receivesAs.period] using ha)
        rw [hact]
        rfl
  · intro v
    obtain ⟨h1, h2, h3, h4, h5, h6, h7⟩ := v.statusBytes_places
    exact ⟨v.statusBytes, takeControl_of_answer hs rfl s.acted_answersAs, h1, h2, h3, h4, h5, h6, h7⟩

end Sys2Proof.Machine
end

section
/-! The port's registers and notices (O57, O58), the merge's ties and bounds (O31), a record created (O41). -/

namespace Sys2Proof.Machine

open Sys2Proof

/-! ## The chain registers and the notices (9.1, 9.4) -/

/-- The bits of two halves joined. -/
theorem joined_getLsbD (x y : BitVec 32) (i : Nat) :
    BitVec.getLsbD (w := 64) (x ++ y) i = if i < 32 then y.getLsbD i else x.getLsbD (i - 32) :=
  BitVec.getLsbD_append

theorem lowHalf_getLsbD {i : Nat} (hi : i < 64) : (0x00000000FFFFFFFF#64).getLsbD i = decide (i < 32) := by
  interval_cases i <;> rfl

theorem highHalf_getLsbD {i : Nat} (hi : i < 64) : (0xFFFFFFFF00000000#64).getLsbD i = decide (32 ≤ i) := by
  interval_cases i <;> rfl

/-- The low half replaced (R181). -/
theorem replaceAddr_low (old v : BitVec 64) :
    replaceAddr old .low v = old.extractLsb' 32 32 ++ v.extractLsb' 0 32 := by
  refine BitVec.eq_of_getLsbD_eq fun i hi => ?_
  rw [joined_getLsbD, replaceAddr, BitVec.getLsbD_or, BitVec.getLsbD_and, BitVec.getLsbD_and, lowHalf_getLsbD hi,
    highHalf_getLsbD hi]
  by_cases h : i < 32
  · simp [h, Nat.not_le.2 h]
  · have hsub : i - 32 < 32 ∧ 32 + (i - 32) = i := by omega
    simp [h, Nat.not_lt.1 h, hsub]

/-- The high half replaced (R181). -/
theorem replaceAddr_high (old v : BitVec 64) :
    replaceAddr old .high v = v.extractLsb' 0 32 ++ old.extractLsb' 0 32 := by
  refine BitVec.eq_of_getLsbD_eq fun i hi => ?_
  rw [joined_getLsbD, replaceAddr, BitVec.getLsbD_or, BitVec.getLsbD_and, lowHalf_getLsbD hi]
  by_cases h : i < 32
  · simp [h]
  · have hsub : i - 32 < 32 := by omega
    simp only [h, hsub, hi, decide_false, Bool.and_false, Bool.false_or, BitVec.getLsbD_shiftLeft, decide_true,
      Bool.not_false, Bool.true_and, if_false, BitVec.getLsbD_extractLsb', Nat.zero_add]

/-- Settles O57: each write is its register's own update. -/
theorem chainRegisters : Obligations.ChainRegisters := by
  intro s c v w hs x addr
  refine ⟨windowed_of_served hs _, windowed_of_served hs _, ?_, ?_, rfl⟩
  · refine (windowed_of_served hs _).trans ?_
    rw [replaceAddr_low]
  · refine (windowed_of_served hs _).trans ?_
    rw [replaceAddr_high]

/-- A write enables set causes where some set cause was not enabled and is now (R184). -/
theorem newlyEnabled_eq (notice old new : BitVec 15) : newlyEnabled notice old new =
    decide (∃ i : Fin 15, notice.getLsbD i = true ∧ new.getLsbD i = true ∧ old.getLsbD i = false) := by
  rw [Bool.eq_iff_iff, decide_eq_true_iff]
  unfold newlyEnabled
  rw [bne_iff_ne]
  constructor
  · intro h
    by_contra hc
    refine h (BitVec.eq_of_getLsbD_eq fun i hi => ?_)
    have := fun hi' => hc ⟨⟨i, hi⟩, hi'⟩
    cases h1 : notice.getLsbD i <;> cases h2 : new.getLsbD i <;> cases h3 : old.getLsbD i <;>
      simp_all
  · rintro ⟨i, h1, h2, h3⟩ h
    have hbit := congrArg (fun b : BitVec 15 => b.getLsbD i) h
    simp only [BitVec.getLsbD_and, BitVec.getLsbD_not, h1, h2, h3, BitVec.getLsbD_zero, i.isLt] at hbit
    simp at hbit

/-- The bit of a cause is the one its mask holds. -/
theorem Cause.mask_getLsbD (c : Cause) (i : Nat) : c.mask.getLsbD i = decide (i = c.bit) := by
  by_cases h : i < 15
  · cases c <;> interval_cases i <;> rfl
  · have hne : i ≠ c.bit := by rintro rfl; exact h (by cases c <;> decide)
    rw [BitVec.getLsbD_of_ge _ _ (by omega), decide_eq_false hne]

/-- Settles O58: what each command does to NOTICE, the enables and the message. -/
theorem notices : Obligations.Notices := by
  refine ⟨fun s v hs => windowed_of_served hs _, fun s v hs => ?_, fun s hs hm hb => ?_, fun s c => ⟨fun i => ?_, rfl,
    ?_, ?_⟩⟩
  · refine (windowed_of_served hs _).trans ?_
    unfold State.writeEnables
    rw [newlyEnabled_eq]
  · refine (linked_of_served hs _).trans ?_
    simp [State.unmask, State.message, hm, hb]
  · rw [State.notify_prt, BitVec.getLsbD_or, Cause.mask_getLsbD]
  · simp [State.message, and_assoc]
  · simp [State.message]

/-! ## Ties and bounds (R54, R74, R76, R79) -/

/-- Some source other than `a` stands at the same stamp. -/
theorem State.contested_iff {s : State} {a : Source} {t : Stamp} : s.contested a t = true ↔
    ∃ b : Source, b ≠ .internal ∧ b ≠ a ∧ s.bound b = .upTo t := by
  have hmem (b : Source) : b ∈ rankedSources ↔ b ≠ .internal := by
    rcases b with l | _ | _
    · fin_cases l <;> simp [rankedSources]
    · simp [rankedSources]
    · simp [rankedSources]
  simp [State.contested, hmem]

theorem Source.code_le {a : Source} (h : a ≠ .internal) : a.code ≤ 4 := by
  rcases a with l | _ | _
  · exact (Nat.le_of_lt_succ l.isLt).trans (by decide)
  · exact le_rfl
  · exact absurd rfl h

theorem rank_eq (tie : Nat) {a : Source} (h : a ≠ .internal) : rank tie a = 1 + (a.code + 5 - tie) % 5 := by
  rcases a with l | _ | _
  · rfl
  · rfl
  · exact absurd rfl h

theorem Stamp.ble_refl (t : Stamp) : t.ble t = true := by simp [Stamp.ble]

theorem Stamp.ble_of_blt {t u : Stamp} (h : t.blt u = true) : t.ble u = true := by
  rw [Stamp.blt_iff] at h
  simp only [Stamp.ble, Bool.or_eq_true, Bool.and_eq_true, decide_eq_true_eq, beq_iff_eq]
  omega

theorem Stamp.ble_of_not_blt {t u : Stamp} (h : ¬ t.blt u = true) : u.ble t = true := by
  rw [Stamp.blt_iff] at h
  simp only [Stamp.ble, Bool.or_eq_true, Bool.and_eq_true, decide_eq_true_eq, beq_iff_eq]
  omega

/-- Settles O31: ranks and pointer are arithmetic modulo 5, the bounds the cases of their definition. -/
theorem tiesAndBounds : Obligations.TiesAndBounds := by
  refine ⟨⟨fun tie ht => ⟨rfl, fun l => rfl, ?_⟩, fun s a t ht => ⟨fun hc ha => ?_, fun h => ?_, State.contested_iff⟩⟩,
    fun s => ⟨fun l => ?_, rfl, ?_⟩⟩
  · have hcode := rank_eq tie (a := .engine) nofun
    exact hcode
  · have hle := Source.code_le ha
    have htie : s.tieAfter a t = (a.code + 1) % 5 := if_pos ⟨ha, hc⟩
    rw [htie, rank_eq _ ha]
    omega
  · refine if_neg ?_
    rcases h with h | h
    · simp [h]
    · simp [h]
  · show (s.line l).bound s.now = _
    unfold Line.bound
    cases (s.line l).fifo with
    | cons e rest => rfl
    | nil =>
      cases (s.line l).frame with
      | none => rfl
      | some m => cases m <;> rfl
  · cases hg : s.sqm.agenda with
    | nil => exact ⟨s.now, by simp [State.bound, hg], Stamp.ble_refl _, by simp, .inl rfl⟩
    | cons e rest =>
      by_cases h : e.stamp.blt s.now = true
      · exact ⟨e.stamp, by simp [State.bound, hg, h], Stamp.ble_of_blt h, by simp [Stamp.ble_refl], .inr (by simp)⟩
      · exact ⟨s.now, by simp [State.bound, hg, h], Stamp.ble_refl _, by simpa using Stamp.ble_of_not_blt h, .inl rfl⟩

/-! ## A record created (R86, R87, R119, R120, R129) -/

/-- What a merge makes of two check inputs' evidence (R129). -/
theorem CheckEvidence.merge_eq (x y : CheckEvidence) : x.merge y = { y with
    edges := min 15 (x.edges + y.edges), missing := min 65535 (x.missing + y.missing)
    offset := if y.offset.isSome then y.offset else x.offset
    double := x.double || y.double, disagree := x.disagree || y.disagree } := by
  cases h : y.offset <;> simp [CheckEvidence.merge, satAdd, Config.count4, Config.count16, h]

/-- What a merge makes of the parts of two PARAMS records (R87). -/
theorem mergeSteering_eq (p₁ p : Option SteeringPart) :
    (p = none → mergeSteering p₁ p = p₁)
      ∧ ∀ a, p = some a → mergeSteering p₁ p
          = some { a with old := match p₁ with | some z => z.old | none => a.old } := by
  cases p₁ <;> cases p <;> simp [mergeSteering]

theorem mergeEvidence_eq (q₁ q : Option EvidencePart) :
    (q = none → mergeEvidence q₁ q = q₁)
      ∧ ∀ a, q = some a → mergeEvidence q₁ q
          = some { a with old := match q₁ with | some z => z.old | none => a.old } := by
  cases q₁ <;> cases q <;> simp [mergeEvidence]

/-- Settles O41: the record is inserted, or the one of its class that waits takes it in. -/
theorem recordCreated : Obligations.RecordCreated := by
  intro s stamp cls group late stepped body t new
  have hagenda : t.sqm.agenda = arrive new s.sqm.agenda := rfl
  refine ⟨rfl, fun hnone w => ?_, fun w hw hclass => ?_⟩
  · rw [hagenda]
    rcases arrive_cases new s.sqm.agenda with ⟨-, ha⟩ | ⟨⟨v, hv, hs⟩, -⟩
    · rw [ha]
      exact mem_insertAgenda
    · exact absurd (hnone v hv) (by simpa [new] using hs)
  · have hmerged : t.sqm.agenda = s.sqm.agenda.map fun w => if w.body.sameClass body then w.merge new else w := by
      rw [hagenda]
      rcases arrive_cases new s.sqm.agenda with ⟨hn, -⟩ | ⟨-, ha⟩
      · exact absurd (hn w hw) (by simpa [new] using hclass)
      · exact ha
    refine ⟨by rw [hmerged, List.length_map], w.merge new, ?_, rfl, rfl, rfl, rfl, rfl, rfl, ?_, ?_, ?_, ?_⟩
    · rw [hmerged]
      exact List.mem_map.2 ⟨w, hw, if_pos hclass⟩
    · rintro i n k hwb rfl
      simp [Internal.merge, hwb, new, Body.merge, satAdd, Config.count16]
    · rintro a b a' b' hwb rfl
      simp [Internal.merge, hwb, new, Body.merge]
    · rintro θ₀ l₀ old θ l fresh hwb rfl
      refine ⟨old.merge fresh, by simp [Internal.merge, hwb, new, Body.merge], ?_, ?_, ?_, ?_, ?_, ?_, ?_⟩
      all_goals intros; subst_vars
      · rfl
      · rfl
      · rfl
      · rfl
      · rfl
      · rfl
      · exact ⟨_, _, rfl, (mergeSteering_eq _ _).1, (mergeEvidence_eq _ _).1, (mergeSteering_eq _ _).2,
          (mergeEvidence_eq _ _).2⟩
    · rintro z a hwb rfl
      intro check
      refine ⟨Quad.zip Counters.plus z.counters a.counters, fun l => Quad.get_zip _ _ _ _, ?_⟩
      have hbody : (w.merge new).body = .attest (z.merge a) := by simp [Internal.merge, hwb, new, Body.merge]
      rw [hbody]
      unfold Attest.merge
      rw [CheckEvidence.merge_eq, CheckEvidence.merge_eq]
      have htheta : mergeTheta z.theta a.theta = (match z.theta, a.theta with
          | some x, some y => some { last := y.last, min := min x.min y.min, max := max x.max y.max }
          | some x, none => some x
          | none, y => y) := by
        cases z.theta <;> cases a.theta <;> rfl
      rw [htheta]
      rfl

end Sys2Proof.Machine
end

section
/-! START, RESUME and STOP (O49, O50), and the walks of the chains (O51, O52). -/

namespace Sys2Proof.Machine

open Sys2Proof

/-! ## Contexts -/

/-- The last replacement of a context counts. -/
theorem State.setCtx_setCtx (s : State) (c : Chain) (x y : ChainCtx) : (s.setCtx c x).setCtx c y = s.setCtx c y := by
  cases c <;> rfl

/-- A command of the window whose effect keeps the endpoint. -/
theorem windowedIO_of_carries {s : State} {k : State → State} (hs : s.served) (hc : s.carries)
    (hl : (k s).ep.linkUp = s.ep.linkUp) (hb : (k s).ep.busMaster = s.ep.busMaster) :
    windowedIO s k = .next (k s) :=
  (windowedIO_of_served hs k).trans (next_busCheck hc hl hb)

/-- A completed access whose effect keeps the endpoint. -/
theorem portedIO_of_carries {s : State} {k : State → State} (hr : s.ready) (hc : s.carries)
    (hl : (k s).ep.linkUp = s.ep.linkUp) (hb : (k s).ep.busMaster = s.ep.busMaster) :
    portedIO s k = .next (k s) :=
  (portedIO_of_ready hr k).trans (next_busCheck hc hl hb)

theorem misaligned_iff (a : BitVec 64) : misaligned a = true ↔ a.toNat % 64 ≠ 0 := by simp [misaligned]

/-! ## START and RESUME (R141, R142) -/

theorem State.startChain_ep (s : State) (c : Chain) :
    (s.startChain c).ep.linkUp = s.ep.linkUp ∧ (s.startChain c).ep.busMaster = s.ep.busMaster := by
  unfold State.startChain
  dsimp only
  split
  · split
    · simp [State.enterFault]
    · simp
  · simp [State.ignoreCommand]

theorem State.resumeChain_ep (s : State) (c : Chain) :
    (s.resumeChain c).ep.linkUp = s.ep.linkUp ∧ (s.resumeChain c).ep.busMaster = s.ep.busMaster := by
  unfold State.resumeChain
  dsimp only
  split <;> simp [State.ignoreCommand]

/-- An ACTIVE chain remembers a RESUME. -/
theorem State.resumeChain_active {s : State} {c : Chain} (h : (s.ctx c).state = .active) :
    s.resumeChain c = s.setCtx c { s.ctx c with remembered := true, ignored := false } := by
  unfold State.resumeChain
  generalize s.ctx c = x at h ⊢
  obtain ⟨st, _, _, _, _, _, _, _⟩ := x
  obtain rfl : st = .active := h
  rfl

/-- START and RESUME outside a CHAINS scope. -/
theorem exec_start {s : State} {c : Chain} (hs : s.served) (hc : s.carries) (hi : s.prt.chains = .idle) :
    exec (.start c) s = .next (s.startChain c) := by
  have hk : s.command c (fun s => s.startChain c) = s.startChain c := by simp [State.command, hi]
  refine (windowedIO_of_carries hs hc ?_ ?_).trans (congrArg _ hk)
  · rw [hk]; exact (s.startChain_ep c).1
  · rw [hk]; exact (s.startChain_ep c).2

theorem exec_resume {s : State} {c : Chain} (hs : s.served) (hc : s.carries) (hi : s.prt.chains = .idle) :
    exec (.resume c) s = .next (s.resumeChain c) := by
  have hk : s.command c (fun s => s.resumeChain c) = s.resumeChain c := by simp [State.command, hi]
  refine (windowedIO_of_carries hs hc ?_ ?_).trans (congrArg _ hk)
  · rw [hk]; exact (s.resumeChain_ep c).1
  · rw [hk]; exact (s.resumeChain_ep c).2

/-- A command of a chain while a CHAINS scope is in progress (R179). -/
theorem windowedIO_ignored {s : State} {c : Chain} {k : State → State} (hs : s.served) (hc : s.carries)
    (hi : s.prt.chains ≠ .idle) :
    windowedIO s (fun s => s.command c k) = .next (s.setCtx c { s.ctx c with ignored := true }) := by
  have hk : s.command c k = s.ignoreCommand c := if_pos hi
  refine (windowedIO_of_carries hs hc ?_ ?_).trans (congrArg _ hk)
  · rw [hk]; simp [State.ignoreCommand]
  · rw [hk]; simp [State.ignoreCommand]

/-- Settles O49, by the state of the chain. -/
theorem startAndResume : Obligations.StartAndResume := by
  intro s c hs hc x ignored
  refine ⟨fun hi => ⟨windowedIO_ignored hs hc hi, windowedIO_ignored hs hc hi, windowedIO_ignored hs hc hi⟩,
    fun hi => ⟨fun hx => ⟨fun ha h0 => ?_, fun ha => ?_, ?_⟩, fun hx => ⟨?_, ?_⟩, fun hx => ⟨?_, ?_⟩, fun hx => ⟨?_, ?_⟩⟩⟩
  · rw [exec_start hs hc hi, State.startChain, if_pos hx, if_neg (by rw [misaligned_iff]; tauto)]
    simp only [State.enterBlock, State.setCtx_setCtx, State.setCtx_ctx]
    rfl
  · rw [exec_start hs hc hi, State.startChain, if_pos hx, if_pos (by rw [misaligned_iff]; exact ha.symm)]
    simp only [State.enterFault, State.setCtx_setCtx, State.setCtx_ctx]
    rfl
  · rw [exec_resume hs hc hi]
    rcases hx with hx | hx
    · simp only [State.resumeChain, show (s.ctx c).state = _ from hx]
      rfl
    · simp only [State.resumeChain, show (s.ctx c).state = _ from hx]
      rfl
  · rw [exec_start hs hc hi, State.startChain, if_neg (by rw [show (s.ctx c).state = _ from hx]; simp)]
    rfl
  · rw [exec_resume hs hc hi]
    simp only [State.resumeChain, show (s.ctx c).state = _ from hx]
    rfl
  · rw [exec_start hs hc hi, State.startChain, if_neg (by rw [show (s.ctx c).state = _ from hx]; simp)]
    rfl
  · rw [exec_resume hs hc hi, State.resumeChain_active hx]
  · rw [exec_start hs hc hi, State.startChain, if_neg (by rw [show (s.ctx c).state = _ from hx]; simp)]
    rfl
  · rw [exec_resume hs hc hi]
    simp only [State.resumeChain, show (s.ctx c).state = _ from hx]
    rfl

/-! ## STOP (R143, R144, R169) -/

/-- The final header write of a request block, as the statements spell it. -/
theorem finishWrites_eq (c : Chain) (block : BitVec 64) (bad : Bool) (cause : CloseCause)
    (count first last state : Nat) (notify leave : Bool) :
    finishWrites c block bad cause count first last state notify leave
      = finalWrites c block (if bad then 1#8 else 0#8) (BitVec.ofNat 8 cause.code) (BitVec.ofNat 8 state) count first
          last notify leave := by
  cases bad <;> rfl

/-- The close write of a capture block, as the statements spell it. -/
theorem closeWrites_eq (b : OpenBlock) (cause : CloseCause) : closeWrites b cause =
    [blockWrite .capture b.addr 10 [0#8, BitVec.ofNat 8 cause.code],
     blockWrite .capture b.addr 16
       (leBytes 4 b.used ++ leBytes 4 b.count ++ leBytes 8 b.first ++ leBytes 8 b.last),
     { blockWrite .capture b.addr 8 [3#8] with ends := .captureDone }] := by
  simp [closeWrites, blockWrite, plainWrite, countsBytes, u8, blockDone]

theorem State.stopChain_ep (s : State) (c : Chain) :
    (s.stopChain c).ep = s.ep := by
  have hfinish (t : State) : t.finishStop.ep = t.ep := by simp
  cases c with
  | control =>
    unfold State.stopChain State.stopControl
    dsimp only
    split <;> try simp [State.ignoreCommand]
    unfold State.stopWalking
    split <;> simp [State.forgetLeave]
  | event =>
    unfold State.stopChain State.stopEvent
    dsimp only
    split <;> try simp [State.ignoreCommand]
    all_goals
      unfold State.stopWalk
      dsimp only
      split <;> simp [State.forgetLeave]
  | capture =>
    unfold State.stopChain State.stopCapture
    dsimp only
    split <;> try simp [State.ignoreCommand]
    split
    · split <;> simp [State.stoppingCapture]
    · simp [State.stoppingCapture]
    · simp

theorem exec_stop {s : State} {c : Chain} (hs : s.served) (hc : s.carries) (hi : s.prt.chains = .idle) :
    exec (.stop c) s = .next (s.stopChain c) := by
  have hk : s.command c (fun s => s.stopChain c) = s.stopChain c := by simp [State.command, hi]
  refine (windowedIO_of_carries hs hc ?_ ?_).trans (congrArg _ hk)
  · rw [hk, s.stopChain_ep c]
  · rw [hk, s.stopChain_ep c]

/-- With no write in flight there is none to forget the leave of. -/
theorem State.forgetLeave_of_nil {s : State} {c : Chain} (h : s.posted = []) : s.forgetLeave c = s := by
  unfold State.forgetLeave
  rw [h]
  exact congrArg (fun p => { s with posted := p }) h.symm

/-- STOP on an ACTIVE control chain, by the place of the walk. -/
theorem State.stopChain_control_active {s : State} (h : s.ctl.ctx.state = .active) :
    s.stopChain .control = s.stopWalking := by
  simp only [State.stopChain, State.stopControl, h]

theorem State.stopChain_control_halted {s : State} (h : s.ctl.ctx.state = .parked ∨ s.ctl.ctx.state = .fault) :
    s.stopChain .control = s.setCtx .control s.ctl.ctx.stopped := by
  rcases h with h | h <;> simp only [State.stopChain, State.stopControl, h]

theorem State.stopChain_event_walking {s : State} (h : s.evt.ctx.state = .active ∨ s.evt.ctx.state = .parked) :
    s.stopChain .event = s.stopWalk := by
  rcases h with h | h <;> simp only [State.stopChain, State.stopEvent, h]

/-- STOP on an ACTIVE capture chain: with an open block, during a close write, between blocks. -/
theorem State.stopChain_capture_open {s : State} {b : OpenBlock} (h : s.cap.ctx.state = .active)
    (hb : s.pst.block = some b) : s.stopChain .capture =
      if b.count = 0 then { s.setCtx .capture s.cap.ctx.stopped with pst := { s.pst with block := none } }
      else s.stoppingCapture.closeBlock b .stop := by
  simp only [State.stopChain, State.stopCapture, h, hb]

theorem State.stopChain_capture_closing {s : State} {c : CapClose} (h : s.cap.ctx.state = .active)
    (hb : s.pst.block = none) (hc : s.cap.closing = some c) : s.stopChain .capture = s.stoppingCapture := by
  simp only [State.stopChain, State.stopCapture, h, hb, hc]

theorem State.stopChain_capture_between {s : State} (h : s.cap.ctx.state = .active) (hb : s.pst.block = none)
    (hc : s.cap.closing = none) : s.stopChain .capture = s.setCtx .capture s.cap.ctx.stopped := by
  simp only [State.stopChain, State.stopCapture, h, hb, hc]

/-- A final write that the walk does not wait for stays as it is. -/
theorem State.forgetLeave_of_final {s : State} {c : Chain} {block : BitVec 64} {status cause state : Byte}
    {count first last : Nat} {notify : Bool}
    (h : s.posted = finalWrites c block status cause state count first last notify false) : s.forgetLeave c = s := by
  have hmap : s.posted = s.posted.map fun w =>
      if w.chain = c then
        match w.ends with
        | .final notify _ => { w with ends := .final notify false }
        | _ => w
      else w := by
    rw [h]
    simp [finalWrites, blockWrite]
  exact congrArg (fun p => { s with posted := p }) hmap.symm

/-- How a STOP of the event chain finishes (R144). -/
theorem State.finishStop_eq {s : State} (hw : s.prt.chains ≠ .waitDone) : s.finishStop = { s with
    posted := s.posted ++ (s.evt.blocks.filter fun b => !b.left).flatMap fun b => b.writes .stop blockPartial
    evt := { s.evt with
      blocks := s.evt.blocks.filter fun b => b.left
      ctx := { s.evt.ctx with state := .inactive, walk := .none } } } := by
  unfold State.finishStop
  dsimp only
  rw [State.post_eq (by exact hw)]
  rfl

/-- Settles O50, chain by chain and by the state of the chain. -/
theorem stopChain : Obligations.StopChain := by
  refine ⟨fun s hs hc hi => ?_, fun s hs hc hi => ?_⟩
  · have hw : s.prt.chains ≠ .waitDone := by rw [hi]; nofun
    intro x y halt
    refine ⟨fun hx => ?_, fun n hx hn hp => ?_, fun hx hwalk hp => ?_, fun n hd hx hwalk => ?_, fun hx => ?_,
      fun hy ho hp => ?_, fun hy hb hp => ?_, fun b hy hb hleft hout hlow hhigh hbad hp => ?_, fun hy => ?_, fun hy => ?_⟩
    · rw [exec_stop hs hc hi, State.stopChain_control_halted hx]
      rfl
    · rw [exec_stop hs hc hi, State.stopChain_control_active hx, State.stopWalking]
      simp only [show s.ctl.ctx.walk = _ from hn]
      rw [State.finishControl_eq hw, hp, State.forgetLeave_of_final (by rfl)]
      rfl
    · rw [exec_stop hs hc hi, State.stopChain_control_active hx]
      rcases hwalk with hwalk | hwalk
      all_goals
        simp only [State.stopWalking, show s.ctl.ctx.walk = _ from hwalk, State.forgetLeave_of_nil hp]
        rfl
    · rw [exec_stop hs hc hi, State.stopChain_control_active hx]
      rcases hwalk with hwalk | hwalk
      · simp only [State.stopWalking, show s.ctl.ctx.walk = _ from hwalk]
        rfl
      · simp only [State.stopWalking, show s.ctl.ctx.walk = _ from hwalk]
        rfl
    · rw [exec_stop hs hc hi]
      simp only [State.stopChain, State.stopControl, show s.ctl.ctx.state = _ from hx]
      rfl
    · rw [exec_stop hs hc hi, State.stopChain_event_walking hy, State.stopWalk, State.forgetLeave_of_nil hp]
      exact congrArg _ (if_neg (show ¬ s.outstanding = 0 from ho.ne'))
    · rw [exec_stop hs hc hi, State.stopChain_event_walking hy, State.stopWalk, State.forgetLeave_of_nil hp]
      have hnone : s.outstanding = 0 := by simp [State.outstanding, hb]
      refine congrArg _ ((if_pos (show s.outstanding = 0 from hnone)).trans ?_)
      rw [State.finishStop_eq (by exact hw)]
      simp [State.setCtx, hb, y]
    · rw [exec_stop hs hc hi, State.stopChain_event_walking (.inl hy), State.stopWalk, State.forgetLeave_of_nil hp]
      have hnone : s.outstanding = 0 := by simp [State.outstanding, hb, hout]
      refine congrArg _ ((if_pos (show s.outstanding = 0 from hnone)).trans ?_)
      rw [State.finishStop_eq (by exact hw)]
      simp [State.setCtx, hb, y, hp, hleft, EvtBlock.writes, finishWrites_eq, finalWrites, hbad, hlow, hhigh,
        CloseCause.code, blockPartial]
    · rw [exec_stop hs hc hi]
      simp only [State.stopChain, State.stopEvent, show s.evt.ctx.state = _ from hy]
      rfl
    · rw [exec_stop hs hc hi]
      rcases hy with hy | hy
      all_goals
        simp only [State.stopChain, State.stopEvent, show s.evt.ctx.state = _ from hy]
        rfl
  · have hw : s.prt.chains ≠ .waitDone := by rw [hi]; nofun
    intro x halted stopping run
    refine ⟨fun b hx hb hcount => ?_, fun b hx hb hcount => ?_, fun hx hb hcl => ?_, fun hx hb hcl => ?_, fun hx => ?_,
      fun hx => ?_⟩
    · refine (exec_stop hs hc hi).trans ?_
      rw [State.stopChain_capture_open hx hb, if_neg hcount.ne', State.closeBlock, State.post_eq (by exact hw),
        closeWrites_eq]
      rfl
    · refine (exec_stop hs hc hi).trans ?_
      rw [State.stopChain_capture_open hx hb, if_pos hcount]
      rfl
    · obtain ⟨cl, hcl'⟩ := Option.ne_none_iff_exists'.1 hcl
      refine (exec_stop hs hc hi).trans ?_
      rw [State.stopChain_capture_closing hx hb hcl']
      rfl
    · refine (exec_stop hs hc hi).trans ?_
      rw [State.stopChain_capture_between hx hb hcl]
      rfl
    · refine (exec_stop hs hc hi).trans ?_
      rcases hx with hx | hx
      all_goals
        simp only [State.stopChain, State.stopCapture, show s.cap.ctx.state = _ from hx]
        rfl
    · refine (exec_stop hs hc hi).trans ?_
      rcases hx with hx | hx
      all_goals
        simp only [State.stopChain, State.stopCapture, show s.cap.ctx.state = _ from hx]
        rfl

end Sys2Proof.Machine
end

section
/-! The walks of the chains: headers, next addresses and slot heads (O51, O52). -/

namespace Sys2Proof.Machine

open Sys2Proof

/-! ## A header read (R138, R142, R146, R163) -/

/-- From `s` to `t` the endpoint's link and bus mastering stay. -/
abbrev State.sameBus (s t : State) : Prop := t.ep.linkUp = s.ep.linkUp ∧ t.ep.busMaster = s.ep.busMaster

theorem State.sameBus_of_ep {s t : State} (h : t.ep = s.ep) : s.sameBus t := by
  rw [State.sameBus, h]
  exact ⟨rfl, rfl⟩

theorem State.park_sameBus (s : State) (c : Chain) (k : ParkKind) : s.sameBus (s.park c k) := by
  rcases s.park_cases c k with ⟨-, h⟩ | ⟨-, h⟩ <;> rw [h] <;> simp [State.sameBus]

theorem State.enterFault_sameBus (s : State) (c : Chain) (f : FaultCause) (a : BitVec 64) :
    s.sameBus (s.enterFault c f a) := by simp [State.sameBus, State.enterFault]

theorem State.followNext_sameBus (s : State) (c : Chain) (a : BitVec 64) : s.sameBus (s.followNext c a) := by
  rcases s.followNext_cases c a with ⟨-, h⟩ | ⟨-, -, h⟩ | ⟨-, -, h⟩ <;> rw [h]
  · exact s.park_sameBus ..
  · exact s.enterFault_sameBus ..
  · simp [State.sameBus]

/-- A park that no RESUME averts. -/
theorem State.park_eq {s : State} {c : Chain} (k : ParkKind) (h : (s.ctx c).remembered = false) :
    s.park c k = (s.setCtx c { s.ctx c with state := .parked, park := some k, walk := .none }).notify .chainParked := by
  rcases s.park_cases c k with ⟨h', -⟩ | ⟨-, h'⟩
  · rw [h] at h'; nomatch h'
  · exact h'

theorem State.park_averted {s : State} {c : Chain} (k : ParkKind) (h : (s.ctx c).remembered = true) :
    s.park c k = s.setCtx c
      { s.ctx c with remembered := false, walk := if k = .onBlock then .header else .next } := by
  rcases s.park_cases c k with ⟨-, h'⟩ | ⟨h', -⟩
  · exact h'
  · rw [h] at h'; nomatch h'

theorem State.enterHeader_sameBus (s : State) (c : Chain) (h : BlockHeader) : s.sameBus (s.enterHeader c h) := by
  unfold State.enterHeader
  split
  · exact s.park_sameBus ..
  · cases c
    all_goals
      dsimp only
      split
    · exact State.sameBus_of_ep (by simp [State.takeControlBlock])
    · exact State.sameBus_of_ep (by simp [State.badRequest])
    · exact State.sameBus_of_ep (by simp [State.takeEventBlock])
    · exact State.sameBus_of_ep (by simp [State.badRequest])
    · exact State.sameBus_of_ep (by simp [State.openCapture])
    · exact State.sameBus_of_ep (by simp [State.badCapture])

/-- A chain that waits for a read walks on at its completion. -/
theorem State.walking_of_waitsFor {s : State} {c : Chain} {w : Walk} (h : s.waitsFor c w) : s.walking c = true := by
  obtain ⟨-, -, hw, ha, -⟩ := h
  simp [State.walking, ha, State.halted_eq_false hw]

theorem exec_headerRead {s : State} {c : Chain} (h : s.waitsFor c .header) (hd : BlockHeader) :
    exec (.blockHeaderRead c hd) s = .next (s.enterHeader c hd) := by
  obtain ⟨hr, hc, -, -, hwalk⟩ := id h
  have hk : (if s.walking c && (s.ctx c).walk == .header then s.enterHeader c hd else s) = s.enterHeader c hd := by
    simp [State.walking_of_waitsFor h, hwalk]
  have hbus := s.enterHeader_sameBus c hd
  refine (portedIO_of_carries hr hc ?_ ?_).trans (congrArg _ hk)
  · rw [hk]; exact hbus.1
  · rw [hk]; exact hbus.2

theorem loaded_iff (hd : BlockHeader) : hd.state.toNat ≠ blockLoaded ↔ hd.state ≠ 1#8 := by
  rw [not_iff_not, BitVec.toNat_eq]
  rfl

/-- The header of a LOADED block, on each chain. -/
theorem State.enterHeader_control {s : State} {hd : BlockHeader} (h : hd.state = 1#8) : s.enterHeader .control hd =
    if requestBlockOk hd then s.takeControlBlock hd else s.badRequest .control hd :=
  if_neg (by rw [loaded_iff]; exact not_not.2 h)

theorem State.enterHeader_event {s : State} {hd : BlockHeader} (h : hd.state = 1#8) : s.enterHeader .event hd =
    if requestBlockOk hd then s.takeEventBlock hd else s.badRequest .event hd :=
  if_neg (by rw [loaded_iff]; exact not_not.2 h)

theorem State.enterHeader_capture {s : State} {hd : BlockHeader} (h : hd.state = 1#8) : s.enterHeader .capture hd =
    if capacityOk hd then s.openCapture hd else s.badCapture hd :=
  if_neg (by rw [loaded_iff]; exact not_not.2 h)

theorem State.enterHeader_notLoaded {s : State} {c : Chain} {hd : BlockHeader} (h : hd.state ≠ 1#8) :
    s.enterHeader c hd = s.park c .onBlock := if_pos ((loaded_iff hd).2 h)

theorem capacityOk_iff (hd : BlockHeader) : capacityOk hd = true ↔
    512 ≤ hd.capacity.toNat ∧ hd.capacity.toNat ≤ 65536 ∧ hd.capacity.toNat % 8 = 0 := by
  simp [capacityOk, and_assoc]

theorem requestBlockOk_iff (hd : BlockHeader) : requestBlockOk hd = true ↔
    512 ≤ hd.capacity.toNat ∧ hd.capacity.toNat ≤ 65536 ∧ hd.capacity.toNat % 8 = 0
      ∧ hd.used.toNat ≤ hd.capacity.toNat ∧ hd.used.toNat % 8 = 0 := by
  simp [requestBlockOk, capacityOk_iff, and_assoc]

theorem takenWrite_eq (c : Chain) (block : BitVec 64) : takenWrite c block = blockWrite c block 8 [2#8] := rfl

/-- The walk leaves its block, where no block before it is finished (R145, R157). -/
theorem State.leaveEvent_eq {s : State} {bs : List EvtBlock} {b : EvtBlock} (hw : s.prt.chains ≠ .waitDone)
    (hb : s.evt.blocks = bs ++ [b]) (hu : b.unfinished = false) (hbs : ∀ x ∈ bs, x.finished = false) :
    s.leaveEvent = s.eventLeft b [] := by
  have hgone : bs.filter EvtBlock.finished = [] := List.filter_eq_nil_iff.2 fun x hx => by simp [hbs x hx]
  have hkept : bs.filter (fun x => !x.finished) = bs := List.filter_eq_self.2 fun x hx => by simp [hbs x hx]
  simp only [State.leaveEvent, State.mapCurrent, hb, mapLast_append, State.finishEvent, List.filter_append, hgone,
    hkept, State.eventLeft, List.dropLast_concat, State.readNext]
  rw [State.post_eq (by exact hw)]
  by_cases ho : b.outstanding = 0
  · simp [EvtBlock.finished, ho, hu, State.setCtx, State.ctx, EvtBlock.writes, finishWrites_eq, CloseCause.code,
      blockDone]
  · simp [EvtBlock.finished, ho, State.setCtx, State.ctx]

/-- Settles O51, by the state of the header, its capacity and its used value. -/
theorem blockEntered : Obligations.BlockEntered := by
  refine ⟨fun s c hd hs hcap => ?_, fun s hd hs => ?_⟩
  · intro x good taken run
    have hw : s.prt.chains ≠ .waitDone := hs.2.2.1
    have hrun : run = .next (s.enterHeader c hd) := exec_headerRead hs hd
    have hgood : requestBlockOk hd = true ↔ good := requestBlockOk_iff hd
    refine ⟨fun hn hx => ?_, fun hn hx => ?_, fun hl hg hu hc => ?_, fun hl hg hu hc => ?_, fun hl hg hu hc => ?_,
      fun hl hg hu hc hbs => ?_, fun hl hg => ?_⟩
    · rw [hrun, State.enterHeader_notLoaded hn, State.park_eq _ hx]
    · rw [hrun, State.enterHeader_notLoaded hn, State.park_averted _ hx]
      rfl
    · subst hc
      rw [hrun, State.enterHeader_control hl, if_pos (hgood.2 hg), State.takeControlBlock, State.post_eq hw, State.advanceControl,
        if_neg (show ¬ 0 + 0 ≥ hd.used.toNat by omega)]
      rfl
    · subst hc
      rw [hrun, State.enterHeader_control hl, if_pos (hgood.2 hg), State.takeControlBlock, State.post_eq hw, State.advanceControl,
        if_pos (show 0 + 0 ≥ hd.used.toNat by omega), State.finishControl_eq (by exact hw)]
      simp only [hu]
      rfl
    · subst hc
      rw [hrun, State.enterHeader_event hl, if_pos (hgood.2 hg), State.takeEventBlock, State.post_eq hw, State.advanceEvent_within]
      · rfl
      · rw [State.eventUsed_eq (bs := s.evt.blocks) rfl]
        simpa using hu
    · subst hc
      rw [hrun, State.enterHeader_event hl, if_pos (hgood.2 hg), State.takeEventBlock, State.post_eq hw, State.advanceEvent]
      rw [if_pos (by rw [State.eventUsed_eq (bs := s.evt.blocks) rfl]; simp [hu])]
      rw [State.leaveEvent_eq (bs := s.evt.blocks) (by exact hw) rfl rfl]
      · simp [State.eventLeft, taken, headerNotify, takenWrite_eq, finalWrites, x, State.ctx]
      · intro b hb
        rcases hbs b hb with h | h
        · simp [EvtBlock.finished, h]
        · simp [EvtBlock.finished, h.ne']
    · have hbad : requestBlockOk hd = false := Bool.eq_false_iff.2 (hg ∘ hgood.1)
      cases c with
      | capture => exact absurd rfl hcap
      | control =>
        rw [hrun, State.enterHeader_control hl, if_neg (by simp [hbad]), State.badRequest, State.post_eq hw]
        rfl
      | event =>
        rw [hrun, State.enterHeader_event hl, if_neg (by simp [hbad]), State.badRequest, State.post_eq hw]
        rfl
  · intro x good run
    have hw : s.prt.chains ≠ .waitDone := hs.2.2.1
    have hrun : run = .next (s.enterHeader .capture hd) := exec_headerRead hs hd
    have hgood : capacityOk hd = true ↔ good := capacityOk_iff hd
    refine ⟨fun hn hx => ?_, fun hl hg => ?_, fun hl hg => ?_⟩
    · rw [hrun, State.enterHeader_notLoaded hn, State.park_eq (c := .capture) _ hx]
      rfl
    · rw [hrun, State.enterHeader_capture hl, if_pos (hgood.2 hg)]
      rfl
    · rw [hrun, State.enterHeader_capture hl, if_neg (hg ∘ hgood.1), State.badCapture, State.post_eq hw]
      rfl

end Sys2Proof.Machine
end

section
/-! Next addresses and slot heads (O52). -/

namespace Sys2Proof.Machine

open Sys2Proof

/-! ## A next address read (R145, R164) -/

theorem exec_nextAddressRead {s : State} {c : Chain} (h : s.waitsFor c .next) (a : BitVec 64) :
    exec (.nextAddressRead c a) s = .next (s.followNext c a) := by
  obtain ⟨hr, hc, -, -, hwalk⟩ := id h
  have hk : (if s.walking c && (s.ctx c).walk == .next then s.followNext c a else s) = s.followNext c a := by
    simp [State.walking_of_waitsFor h, hwalk]
  have hbus := s.followNext_sameBus c a
  refine (portedIO_of_carries hr hc ?_ ?_).trans (congrArg _ hk)
  · rw [hk]; exact hbus.1
  · rw [hk]; exact hbus.2

/-! ## A slot's head (R148 to R150) -/

theorem malformedSlot_iff (off used len : Nat) :
    malformedSlot off used len = true ↔ len < 16 ∨ len % 8 ≠ 0 ∨ used < off + len := by
  simp [malformedSlot, or_assoc]

theorem State.controlHead_ep (s : State) (off : Nat) (h : SlotHead) : (s.controlHead off h).ep = s.ep := by
  unfold State.controlHead
  split
  · simp [State.malformedControl]
  · split <;> simp

theorem State.eventHead_ep (s : State) (off : Nat) (h : SlotHead) : (s.eventHead off h).ep = s.ep := by
  unfold State.eventHead
  split
  · simp [State.malformedEvent]
  · split <;> simp

theorem exec_controlHeadRead {s : State} {off : Nat} (h : s.waitsFor .control (.slotHead off)) (hd : SlotHead) :
    exec (.slotHeadRead .control hd) s = .next (s.controlHead off hd) := by
  obtain ⟨hr, hc, -, -, hwalk⟩ := id h
  have hk : (if s.walking .control then
      match Chain.control, (s.ctx .control).walk with
      | .control, .slotHead off => s.controlHead off hd
      | .event, .slotHead off => s.eventHead off hd
      | _, _ => s
    else s) = s.controlHead off hd := by
    rw [if_pos (State.walking_of_waitsFor h), hwalk]
  refine (portedIO_of_carries hr hc ?_ ?_).trans (congrArg _ hk)
  · exact (congrArg (fun t : State => t.ep.linkUp) hk).trans (by rw [s.controlHead_ep])
  · exact (congrArg (fun t : State => t.ep.busMaster) hk).trans (by rw [s.controlHead_ep])

theorem exec_eventHeadRead {s : State} {off : Nat} (h : s.waitsFor .event (.slotHead off)) (hd : SlotHead) :
    exec (.slotHeadRead .event hd) s = .next (s.eventHead off hd) := by
  obtain ⟨hr, hc, -, -, hwalk⟩ := id h
  have hk : (if s.walking .event then
      match Chain.event, (s.ctx .event).walk with
      | .control, .slotHead off => s.controlHead off hd
      | .event, .slotHead off => s.eventHead off hd
      | _, _ => s
    else s) = s.eventHead off hd := by
    rw [if_pos (State.walking_of_waitsFor h), hwalk]
  refine (portedIO_of_carries hr hc ?_ ?_).trans (congrArg _ hk)
  · exact (congrArg (fun t : State => t.ep.linkUp) hk).trans (by rw [s.eventHead_ep])
  · exact (congrArg (fun t : State => t.ep.busMaster) hk).trans (by rw [s.eventHead_ep])

/-- MALFORMED's write, as the statements spell it. -/
theorem malformedWrites_eq (c : Chain) (block : BitVec 64) (off used : Nat) : malformedWrites c block off used =
    if off + 16 ≤ used then [blockWrite c block (64 + off + 4) [8#8]] else [] := by
  unfold malformedWrites
  split
  · simp [statusWrite, blockWrite, plainWrite, bodyAddr, u8, SlotStatus.code, Nat.add_assoc]
  · rfl

theorem statusWrite_eq (c : Chain) (block : BitVec 64) (off : Nat) (st : SlotStatus) :
    statusWrite c block off st = blockWrite c block (64 + off + 4) [BitVec.ofNat 8 st.code] := by
  simp [statusWrite, blockWrite, plainWrite, bodyAddr, u8, Nat.add_assoc]

/-- What a slot of a kind must hold (R150). -/
theorem slotRefusal_none_iff (c : Chain) (h : SlotHead) : slotRefusal c h = none ↔
    ∃ least, minLength c h.kind.toNat = some least ∧ least ≤ h.length.toNat := by
  unfold slotRefusal
  cases minLength c h.kind.toNat with
  | none => simp
  | some n => by_cases hl : h.length.toNat < n <;> simp [hl, not_le.2, not_lt.1]

theorem slotRefusal_kind_iff (c : Chain) (h : SlotHead) : slotRefusal c h = some .kind ↔
    minLength c h.kind.toNat = none := by
  unfold slotRefusal
  cases minLength c h.kind.toNat with
  | none => simp
  | some n => by_cases hl : h.length.toNat < n <;> simp [hl]

/-- A slot of the control chain that CHE's checks refuse is answered as any other, with its status alone. -/
theorem State.refuseControl_eq {t : State} (hw : t.prt.chains ≠ .waitDone) (off : Nat) (h : SlotHead) (st : SlotStatus) :
    t.refuseControl off h st = t.slotAnswered off h 0 [] st := by
  rw [← State.answer_eq hw]
  rfl

/-- The control slot that has just come to its head is answered by CHE, if it refuses it (R150). -/
theorem State.settleControl_refuses {t : State} {off : Nat} {h : SlotHead} {st : SlotStatus} (ho : t.osc = true)
    (hw : t.prt.chains ≠ .waitDone) (ha : t.ctl.ctx.state = .active) (hwalk : t.ctl.ctx.walk = .slot off h)
    (hst : slotRefusal .control h = some st) : t.settleControl = t.slotAnswered off h 0 [] st := by
  have hslot : t.atSlot = some (off, h) := by
    simp [State.atSlot, hwalk, State.walking, State.ctx, ha, State.halted_eq_false hw]
  have hrefusal : t.controlRefusal = some (off, h, st) := by simp [State.controlRefusal, hslot, ho, hst]
  simp only [State.settleControl, hrefusal]
  exact State.refuseControl_eq hw ..

theorem State.settleControl_passes {t : State} {off : Nat} {h : SlotHead} (hwalk : t.ctl.ctx.walk = .slot off h)
    (hst : slotRefusal .control h = none) : t.settleControl = t := by
  have hrefusal : t.controlRefusal = none := by
    simp only [State.controlRefusal, State.atSlot, hwalk]
    by_cases hg : t.walking .control = true <;> simp [hg, hst]
  simp only [State.settleControl, hrefusal]

/-- The event slot that has just come to its head is answered by CHE, if it refuses it and may take it (R150,
R153). -/
theorem State.settleEvent_refuses {t : State} {off : Nat} {h : SlotHead} {st : SlotStatus} (ho : t.osc = true)
    (hm : t.mayTakeEvent = true) (hwalk : t.evt.ctx.walk = .slot off h) (hst : slotRefusal .event h = some st) :
    t.settleEvent = t.refuseEvent off h st := by
  have hrefusal : t.eventRefusal = some (off, h, st) := by simp [State.eventRefusal, hwalk, ho, hm, hst]
  simp only [State.settleEvent, hrefusal]

theorem State.settleEvent_passes {t : State} {off : Nat} {h : SlotHead} (hwalk : t.evt.ctx.walk = .slot off h)
    (hst : slotRefusal .event h = none ∨ t.mayTakeEvent = false) : t.settleEvent = t := by
  have hrefusal : t.eventRefusal = none := by
    rcases hst with hst | hst <;> simp [State.eventRefusal, hwalk, hst]
  simp only [State.settleEvent, hrefusal]

/-- The walk leaves its only block after a change of that block's fields. -/
theorem State.leaveAfter_eq {s : State} {b : EvtBlock} (f : EvtBlock → EvtBlock) (ws : List HostWrite)
    (hw : s.prt.chains ≠ .waitDone) (hb : s.evt.blocks = [b]) (hu : (f b).unfinished = false) :
    ((s.post ws).mapCurrent f).leaveEvent = s.eventLeft (f b) ws := by
  rw [State.post_eq hw, State.leaveEvent_eq (bs := []) (b := f b) (by exact hw) (by simp [State.mapCurrent, hb, mapLast])
    hu (fun x hx => absurd hx (by simp))]
  simp [State.eventLeft, State.mapCurrent, hb, mapLast]

theorem State.mayTakeEvent_iff {t : State} (hw : t.prt.chains ≠ .waitDone) : t.mayTakeEvent = true ↔
    t.evt.ctx.state = .active ∧ t.evt.fifo.length < 16 ∧ t.outstanding < 16
      ∧ t.pst.records.length < t.pst.params.high := by
  simp [State.mayTakeEvent, State.halted_eq_false hw, Config.engineDepth, and_assoc]

/-- What CHE writes of a slot does not ask whether the walk had reached the slot's head only. -/
theorem State.slotAnswered_of_head {s : State} {off : Nat} {h : SlotHead} (st : SlotStatus)
    (hwalk : s.ctl.ctx.walk = .slotHead off) :
    (s.setCtx .control { s.ctl.ctx with walk := .slot off h }).slotAnswered off h 0 [] st
      = s.slotAnswered off h 0 [] st := by
  unfold State.slotAnswered
  simp [State.setCtx, hwalk]

/-- Settles O52: next addresses by their three cases, slot heads by the checks of R148 to R150. -/
theorem walk : Obligations.Walk := by
  refine ⟨fun s c a hs => ?_, fun s c off h hs hcap => ?_⟩
  · intro x run
    have hrun : run = .next (s.followNext c a) := exec_nextAddressRead hs a
    refine ⟨fun h0 hx => ?_, fun h0 hx => ?_, fun ha => ?_, fun h0 ha => ?_⟩
    · rw [hrun, State.followNext, if_pos h0, State.park_eq _ hx]
    · rw [hrun, State.followNext, if_pos h0, State.park_averted _ hx]
      rfl
    · have h0 : a ≠ 0#64 := by rintro rfl; exact ha rfl
      rw [hrun, State.followNext, if_neg h0, if_pos ((misaligned_iff a).2 ha)]
      rfl
    · rw [hrun, State.followNext, if_neg h0, if_neg (by rw [misaligned_iff]; exact not_not.2 ha)]
      rfl
  · obtain ⟨hr, -, hw, ha, hwalk⟩ := id hs
    intro x n used malformed run
    refine ⟨fun hm hc => ?_, fun b hm hc hb hleft hun => ?_, fun hm hst hlt => ?_, fun hm hst hle hc => ?_,
      fun b hm hst hle hc hb hleft hun => ?_, fun hm hst hc => ⟨fun href => ?_, fun st href => ?_⟩,
      fun hm hst hc hwait => ?_, fun b st hm hst hc href h1 h2 h3 hb hleft hun => ?_, slotRefusal_none_iff c h,
      slotRefusal_kind_iff c h⟩
    · subst hc
      rw [show run = _ from exec_controlHeadRead hs h, State.controlHead, if_pos (by rw [malformedSlot_iff]; exact hm),
        State.malformedControl, State.post_eq hw, State.finishControl_eq (by exact hw), malformedWrites_eq]
      simp only [State.countControl, State.setCtx, finalWrites, List.append_assoc]
      rfl
    · subst hc
      rw [show run = _ from exec_eventHeadRead hs h, State.eventHead, if_pos (by rw [malformedSlot_iff]; exact hm),
        State.malformedEvent, State.leaveAfter_eq _ _ hw hb (by exact hun), malformedWrites_eq]
      rfl
    · cases c with
      | control =>
        rw [show run = _ from exec_controlHeadRead hs h, State.controlHead,
          if_neg (by rw [malformedSlot_iff]; exact hm), if_pos hst, State.advanceControl,
          if_neg (Nat.not_le.2 (by exact hlt))]
        rfl
      | event =>
        rw [show run = _ from exec_eventHeadRead hs h, State.eventHead, if_neg (by rw [malformedSlot_iff]; exact hm),
          if_pos hst, State.advanceEvent_within (by exact hlt)]
        rfl
      | capture => exact absurd rfl hcap
    · subst hc
      rw [show run = _ from exec_controlHeadRead hs h, State.controlHead, if_neg (by rw [malformedSlot_iff]; exact hm),
        if_pos hst, State.advanceControl, if_pos (by exact hle), State.finishControl_eq hw]
      rfl
    · subst hc
      rw [show run = _ from exec_eventHeadRead hs h, State.eventHead, if_neg (by rw [malformedSlot_iff]; exact hm),
        if_pos hst, State.advanceEvent, if_pos (by exact hle),
        State.leaveEvent_eq (bs := []) hw hb hun (fun x hx => absurd hx (by simp))]
    · subst hc
      rw [show run = _ from exec_controlHeadRead hs h, State.controlHead, if_neg (by rw [malformedSlot_iff]; exact hm),
        if_neg (not_not.2 hst), State.settleControl_passes (off := off) (h := h) rfl href]
      rfl
    · subst hc
      rw [show run = _ from exec_controlHeadRead hs h, State.controlHead, if_neg (by rw [malformedSlot_iff]; exact hm),
        if_neg (not_not.2 hst), State.settleControl_refuses (off := off) (h := h) (by exact hr.2.1) (by exact hw)
          (by exact ha) rfl href, State.slotAnswered_of_head st hwalk]
    · subst hc
      rw [show run = _ from exec_eventHeadRead hs h, State.eventHead, if_neg (by rw [malformedSlot_iff]; exact hm),
        if_neg (not_not.2 hst), State.settleEvent_passes (off := off) (h := h) rfl]
      · rfl
      · refine hwait.imp_right fun hno => Bool.eq_false_iff.2 fun hmay => ?_
        obtain ⟨-, hfifo, hout, hfill⟩ := (State.mayTakeEvent_iff (by exact hw)).1 hmay
        rcases hno with hno | hno | hno
        · exact absurd hfifo (not_lt.2 hno)
        · exact absurd hout (not_lt.2 hno)
        · exact absurd hfill (not_lt.2 hno)
    · subst hc
      intro answer
      have hmay : (s.setCtx .event { s.evt.ctx with walk := .slot off h }).mayTakeEvent = true :=
        (State.mayTakeEvent_iff (by exact hw)).2 ⟨ha, h1, by simpa [State.outstanding, State.setCtx, hb] using h2, h3⟩
      have hrun : run = .next (s.eventWalked off n { b with count := b.count + 1 } answer) := by
        rw [show run = _ from exec_eventHeadRead hs h, State.eventHead, if_neg (by rw [malformedSlot_iff]; exact hm),
          if_neg (not_not.2 hst), State.settleEvent_refuses (by exact hr.2.1) hmay rfl href, State.refuseEvent,
          State.advanceEvent_eq (bs := []) (b := b) (by exact hw) (by exact hb) rfl
            (fun _ => ⟨hun, fun x hx => absurd hx (by simp)⟩), statusWrite_eq]
        simp only [State.eventWalked, State.eventLeft, State.setCtx]
        rfl
      have hused : used = b.used := State.eventUsed_eq (bs := []) hb
      refine ⟨fun hlt => ?_, fun hle => ?_⟩
      · rw [hrun, State.eventWalked, if_pos (hused ▸ hlt), hb]
        rfl
      · rw [hrun, State.eventWalked, if_neg (by rw [hused] at hle; exact Nat.not_lt.2 hle)]

end Sys2Proof.Machine
end

section
/-! Takes of event slots (O53). -/

namespace Sys2Proof.Machine

open Sys2Proof

theorem eventGroupOk_iff (group : Byte) : eventGroupOk group = true ↔ group.toNat < 64 ∨ group.toNat = 255 := by
  simp [eventGroupOk]

theorem stampOk_iff (group : Byte) (len : BitVec 16) (h : SlotHead) : stampOk group len h = true ↔
    (group.toNat < 64 ∨ group.toNat = 255)
      ∧ len.toNat ≤ 240 ∧ 56 + (len.toNat + 7) / 8 * 8 ≤ h.length.toNat := by
  rw [stampOk, Bool.and_eq_true, Bool.and_eq_true, eventGroupOk_iff, decide_eq_true_eq, decide_eq_true_eq, and_assoc]
  rfl

/-- The state an event slot's take leaves: its entry joins the FIFO, TAKEN is written and the walk goes on. -/
theorem State.takeEvent_eq {v : State} {off : Nat} {h : SlotHead} {bs : List EvtBlock} {b : EvtBlock}
    (hw : v.prt.chains ≠ .waitDone) (hb : v.evt.blocks = bs ++ [b])
    (hl : b.used ≤ off + h.length.toNat → b.unfinished = false ∧ ∀ x ∈ bs, 0 < x.outstanding) (e : EngineEntry) :
    v.takeEvent off h e = ({ v with evt := { v.evt with fifo := v.evt.fifo ++ [e] } } : State).eventWalked off
      h.length.toNat { b with outstanding := b.outstanding + 1 }
      [blockWrite .event v.evt.ctx.current (64 + off + 4) [1#8]] := by
  rw [State.takeEvent, statusWrite_eq]
  exact State.advanceEvent_eq (b := b) (by exact hw) (by exact hb) rfl hl

theorem State.refuseEvent_eq {s : State} {off : Nat} {h : SlotHead} {bs : List EvtBlock} {b : EvtBlock}
    (hw : s.prt.chains ≠ .waitDone) (hb : s.evt.blocks = bs ++ [b])
    (hl : b.used ≤ off + h.length.toNat → b.unfinished = false ∧ ∀ x ∈ bs, 0 < x.outstanding) (st : SlotStatus) :
    s.refuseEvent off h st = s.eventWalked off h.length.toNat { b with count := b.count + 1 }
      [blockWrite .event s.evt.ctx.current (64 + off + 4) [BitVec.ofNat 8 st.code]] := by
  rw [State.refuseEvent, State.advanceEvent_eq (b := b) hw hb rfl hl, statusWrite_eq]

theorem State.eventWalked_ep (s : State) (off len : Nat) (b : EvtBlock) (ws : List HostWrite) :
    (s.eventWalked off len b ws).ep = s.ep := by
  unfold State.eventWalked
  split <;> rfl

theorem takeEngine_taken {s : State} {code off : Nat} {h : SlotHead} {bs : List EvtBlock} {b : EvtBlock}
    {ok : SlotHead → Bool} (hs : s.eventAt code off h) (hb : s.evt.blocks = bs ++ [b])
    (hl : b.used ≤ off + h.length.toNat → b.unfinished = false ∧ ∀ x ∈ bs, 0 < x.outstanding)
    (kind : EngineKind) (group : Byte) (payload : List Byte) (hok : ok h = true) :
    takeEngine s code kind group payload ok = .next (({ s.left with
      posted := s.posted
      evt := { s.evt with fifo := s.evt.fifo ++
        [{ stamp := s.left.now, cls := s.left.du.cls, kind := kind, group := group.toNat, tag := h.tag,
           payload := payload, block := s.evt.ctx.current, offset := off, writeBack := true }] } } : State).eventWalked
      off h.length.toNat { b with outstanding := b.outstanding + 1 }
      [blockWrite .event s.evt.ctx.current (64 + off + 4) [1#8]]) := by
  obtain ⟨hr, hc, hw, -⟩ := id hs
  have hposted : s.left.posted = s.posted := by simp
  have hevt : s.left.evt = s.evt := by simp
  rw [takeEngine_of_eventAt hs, if_pos hok, State.takeEvent_eq (by simpa using hw) (by simpa using hb) hl, next_busCheck hc]
  · simp only [State.engineEntry, hevt, ← hposted]
  · rw [State.eventWalked_ep]; simp
  · rw [State.eventWalked_ep]; simp

theorem takeEngine_refused {s : State} {code off : Nat} {h : SlotHead} {bs : List EvtBlock} {b : EvtBlock}
    {ok : SlotHead → Bool} (hs : s.eventAt code off h) (hb : s.evt.blocks = bs ++ [b])
    (hl : b.used ≤ off + h.length.toNat → b.unfinished = false ∧ ∀ x ∈ bs, 0 < x.outstanding)
    (kind : EngineKind) (group : Byte) (payload : List Byte) (hok : ¬ ok h = true) :
    takeEngine s code kind group payload ok = .next (s.eventWalked off h.length.toNat { b with count := b.count + 1 }
      [blockWrite .event s.evt.ctx.current (64 + off + 4) [4#8]]) := by
  obtain ⟨hr, hc, hw, -⟩ := id hs
  rw [takeEngine_of_eventAt hs, if_neg hok, State.refuseEvent_eq hw hb hl, next_busCheck hc (by rw [State.eventWalked_ep])
    (by rw [State.eventWalked_ep])]
  rfl

/-- Settles O53, each kind of event by whether its fields pass. -/
theorem eventTakes : Obligations.EventTakes := by
  intro s off h group len payload bs b hb hl groupOk lengthOk block v taken refused
  have htaken (kind : EngineKind) (data : List Byte) (code : Nat) (ok : SlotHead → Bool) (hs : s.eventAt code off h)
      (hok : ok h = true) : takeEngine s code kind group data ok = .next (taken kind data) := by
    rw [takeEngine_taken hs hb hl _ _ _ hok]
  refine ⟨fun hs hok => ?_, fun hs hok => ?_, fun hs hok => ?_, fun hs hok => ?_, fun hs hok => ?_, fun hs hok => ?_⟩
  · exact htaken _ _ _ _ hs ((stampOk_iff ..).2 hok)
  · exact takeEngine_refused hs hb hl _ _ _ (fun hp => hok ((stampOk_iff ..).1 hp))
  · exact htaken _ _ _ _ hs ((eventGroupOk_iff _).2 hok)
  · exact takeEngine_refused hs hb hl _ _ _ (fun hp => hok ((eventGroupOk_iff _).1 hp))
  · exact htaken _ _ _ _ hs ((eventGroupOk_iff _).2 hok)
  · exact takeEngine_refused hs hb hl _ _ _ (fun hp => hok ((eventGroupOk_iff _).1 hp))

end Sys2Proof.Machine
end

section
/-! Host accesses that fail (O55). -/

namespace Sys2Proof.Machine

open Sys2Proof

/-! ## Reads (R147, R164) -/

theorem State.finishEvent_ep (s : State) : s.finishEvent.ep = s.ep := by simp [State.finishEvent]

theorem State.readFault_sameBus (s : State) (c : Chain) : s.sameBus (s.readFault c) := by
  unfold State.readFault
  dsimp only
  split
  · have h := State.enterFault_sameBus (s.mapCurrent fun b => { b with left := true, unfinished := true }).finishEvent c
      .readError (((s.mapCurrent fun b => { b with left := true, unfinished := true }).finishEvent).ctx c).current
    rw [State.sameBus, State.finishEvent_ep] at h
    exact h
  · exact s.enterFault_sameBus ..

/-- Both ways in which a read fails. -/
theorem exec_readFailed {s : State} {c : Chain} (hr : s.ready) (hc : s.carries) (ho : (s.ctx c).readOpen = true) :
    exec (.dmaReadFailed c) s = .next (s.readFault c) ∧ exec (.dmaReadTimeout c) s = .next (s.readFault c) := by
  have hk : (if (s.ctx c).readOpen then s.readFault c else s) = s.readFault c := if_pos ho
  have hbus := s.readFault_sameBus c
  constructor
  · refine (portedIO_of_carries hr hc ?_ ?_).trans (congrArg _ hk) <;> rw [hk]
    exacts [hbus.1, hbus.2]
  · refine (portedIO_of_carries hr hc ?_ ?_).trans (congrArg _ hk) <;> rw [hk]
    exacts [hbus.1, hbus.2]

theorem State.readFault_plain {s : State} {c : Chain} (h : ¬ (c = .event ∧ s.evt.ctx.atSlot = true)) :
    s.readFault c = (s.setCtx c { s.ctx c with
      state := .fault, fault := some .readError, remembered := false, park := none, walk := .none }).notify
        .chainFault := by
  rw [State.readFault, if_neg h]
  rfl

/-- A block whose slot read failed leaves the list unwritten, once nothing of it is outstanding. -/
theorem State.readFault_slot {s : State} {b : EvtBlock} (h : s.evt.ctx.atSlot = true) (hb : s.evt.blocks = [b]) :
    s.readFault .event = ({ s with evt := { s.evt with
      ctx := { s.evt.ctx with
        state := .fault, fault := some .readError, remembered := false, park := none, walk := .none }
      blocks := if b.outstanding = 0 then [] else [{ b with left := true, unfinished := true }] } } : State).notify
        .chainFault := by
  have hleft : (s.mapCurrent fun b => { b with left := true, unfinished := true }).finishEvent = { s with
      evt := { s.evt with
        blocks := if b.outstanding = 0 then [] else [{ b with left := true, unfinished := true }] } } := by
    by_cases ho : b.outstanding = 0 <;>
      simp [State.finishEvent, State.mapCurrent, hb, mapLast, EvtBlock.finished, ho, State.post]
  rw [State.readFault, if_pos ⟨rfl, h⟩, hleft]
  rfl

/-! ## Writes (R147, R170, R173) -/

theorem State.mayFail_of {s : State} {c : Chain} {pre rest : List HostWrite} {w : HostWrite}
    (hp : s.posted = pre ++ w :: rest) (hplain : ∀ v ∈ pre, v.ends = .plain) (hw : w.chain = c) :
    s.mayFail { chain := c, sent := pre.length } = true := by
  simp only [State.mayFail, hp]
  simpa [HostWrite.isPlain, hw] using hplain

theorem State.sendFirst_of {s : State} {pre rest : List HostWrite} (hp : s.posted = pre ++ rest) :
    s.sendFirst pre.length = { s with
      posted := rest
      wire := (pre.map fun v => Output.hostWrite v.addr v.bytes).reverse ++ s.wire } := by
  simp only [State.sendFirst, hp, List.drop_left, List.take_left]
  rfl

/-- DMA_WRITE_FAILED where the writes before the failed one end nothing. -/
theorem exec_dmaWriteFailed {s : State} {c : Chain} {pre rest : List HostWrite} {w : HostWrite} (hs : s.calm)
    (hp : s.posted = pre ++ w :: rest) (hplain : ∀ v ∈ pre, v.ends = .plain) (hw : w.chain = c) :
    exec (.dmaWriteFailed { chain := c, sent := pre.length }) s = .next (State.writeFault { s with
      posted := w :: rest
      wire := (pre.map fun v => Output.hostWrite v.addr v.bytes).reverse ++ s.wire } c) := by
  obtain ⟨hpow, -, hset, howed⟩ := hs
  have hk : s.settleRest.keep (fun s => if s.mayFail { chain := c, sent := pre.length } then
      (s.sendFirst pre.length).writeFault c else s) = (s.sendFirst pre.length).writeFault c := by
    rw [State.settleRest_eq hset, State.keep_eq howed, if_pos (State.mayFail_of hp hplain hw)]
  rw [← State.sendFirst_of hp]
  exact (congrArg Host.Outcome.next (if_pos hpow)).trans (congrArg _ hk)

section
variable {s : State} {rest : List HostWrite} {w : HostWrite} (hp : s.posted = w :: rest)
include hp

theorem State.failing_of {c : Chain} (hw : w.chain = c) : s.failing c = some w := by
  simp [State.failing, hp, hw]

theorem State.failingBlock_of {c : Chain} (hw : w.chain = c) : s.failingBlock c = w.block := by
  simp only [State.failingBlock, State.failing_of hp hw]

theorem State.dropWrites_of {c : Chain} (hw : w.chain = c) (hs : s.ep.sends = true) :
    s.dropWrites c = { s with posted := rest.filter fun v => v.chain != c || v.marksTaken } := by
  simp [State.dropWrites, hp, hw, hs]

theorem State.doneFails_of (hw : w.chain = .capture) :
    s.doneFails = (s.halted && w.ends == .captureDone) := by
  simp only [State.doneFails, State.failing_of hp hw]

theorem State.writeFault_awaited (hw : w.chain = .capture) (hs : s.ep.sends = true) (hwait : s.prt.chains = .waitDone)
    (hends : w.ends = .captureDone) : s.writeFault .capture = { s with
      posted := rest.filter fun v => v.chain != .capture || v.marksTaken
      pst := { s.pst with placed := 0, block := none, flushAt := none }
      cap := { s.cap with closing := none } } := by
  have hdone : s.doneFails = true := by simp [State.doneFails_of hp hw, State.halted, hwait, hends]
  simp only [State.writeFault, State.dropWrites_of hp hw hs, if_pos hdone]

theorem State.writeFault_capture (hw : w.chain = .capture) (hs : s.ep.sends = true) (hwait : s.prt.chains ≠ .waitDone) :
    s.writeFault .capture = State.enterFault { s with
      posted := rest.filter fun v => v.chain != .capture || v.marksTaken
      pst := { s.pst with placed := 0, block := none, flushAt := none }
      cap := { s.cap with closing := none } } .capture .writeError w.block := by
  have hdone : ¬ s.doneFails = true := by simp [State.doneFails_of hp hw, State.halted_eq_false hwait]
  simp only [State.writeFault, State.dropWrites_of hp hw hs, State.failingBlock_of hp hw, if_neg hdone]

end

/-- Settles O55: a failed read by where the chain stands, a failed write by its chain. -/
theorem accessFailed : Obligations.AccessFailed := by
  refine ⟨fun s c hr hc ha hw => ?_, fun s b hr hc ha hw hb => ?_, fun s c pre rest w hs hc hp hplain hwc => ?_⟩
  · have ho : (s.ctx c).readOpen = true := by
      rcases hw with h | h | ⟨-, ⟨off, h⟩ | ⟨off, hd, h | h⟩⟩ <;> simp [ChainCtx.readOpen, ha, h]
    have hplain : ¬ (c = .event ∧ s.evt.ctx.atSlot = true) := by
      rintro ⟨rfl, hat⟩
      have hat : (s.ctx .event).atSlot = true := hat
      rcases hw with h | h | ⟨h, -⟩
      · simp [ChainCtx.atSlot, h] at hat
      · simp [ChainCtx.atSlot, h] at hat
      · exact h rfl
    intro t
    rw [(exec_readFailed hr hc ho).1, (exec_readFailed hr hc ho).2, State.readFault_plain hplain]
    exact ⟨rfl, rfl⟩
  · have hat : s.evt.ctx.atSlot = true := by
      rcases hw with ⟨off, h⟩ | ⟨off, hd, h⟩ <;> simp [ChainCtx.atSlot, h]
    have ho : (s.ctx .event).readOpen = true := by
      rcases hw with ⟨off, h⟩ | ⟨off, hd, h⟩ <;> simp [ChainCtx.readOpen, State.ctx, ha, h]
    intro t
    rw [(exec_readFailed hr hc ho).1, (exec_readFailed hr hc ho).2, State.readFault_slot hat hb]
    exact ⟨rfl, rfl⟩
  · intro kept sent faulted run
    have hsends : s.ep.sends = true := Endpoint.sends_of_carries hc
    have hrun : run = _ := exec_dmaWriteFailed hs hp hplain hwc
    refine ⟨fun hwait hcap hends => ?_, fun hwait => ?_⟩
    · subst hcap
      rw [hrun, State.writeFault_awaited rfl hwc (by exact hsends) (by exact hwait) hends]
    · cases c with
      | control =>
        rw [hrun, State.writeFault, State.dropWrites_of rfl hwc (by exact hsends), State.failingBlock_of rfl hwc]
        rfl
      | event =>
        rw [hrun, State.writeFault, State.dropWrites_of rfl hwc (by exact hsends), State.failingBlock_of rfl hwc]
        rfl
      | capture =>
        rw [hrun, State.writeFault_capture rfl hwc (by exact hsends) (by exact hwait)]
        rfl

end Sys2Proof.Machine
end

section
/-! Host writes that complete (O54). -/

namespace Sys2Proof.Machine

open Sys2Proof

/-! ## Plain writes go out before any command acts (R182) -/

section
variable {s : State} {pre rest : List HostWrite} (hp : s.posted = pre ++ rest) (hplain : ∀ w ∈ pre, w.ends = .plain)
  (hrest : ∀ w ∈ rest.head?, w.ends ≠ .plain)
include hp hplain hrest

/-- The state in which the writes of `pre` are sent. -/
theorem State.sendPlain_of : s.sendPlain = { s with
    posted := rest, wire := (pre.map fun w => Output.hostWrite w.addr w.bytes).reverse ++ s.wire } := by
  have hpre : ∀ w ∈ pre, w.isPlain = true := fun w hw => by simp [HostWrite.isPlain, hplain w hw]
  have hnone : rest.takeWhile HostWrite.isPlain = [] ∧ rest.dropWhile HostWrite.isPlain = rest := by
    cases rest with
    | nil => exact ⟨rfl, rfl⟩
    | cons w ws =>
      have hw : w.isPlain = false := by simpa [HostWrite.isPlain] using hrest w (by simp)
      simp [hw]
  simp only [State.sendPlain, hp, List.takeWhile_append_of_pos hpre, List.dropWhile_append_of_pos hpre, hnone.1, hnone.2,
    List.append_nil]
  rfl

/-- A calm part and the part that has sent its plain writes are the same once nothing is left to do. -/
theorem State.settle_sent (hs : s.calm) (hc : s.carries) : s.settle = State.settle { s with
    posted := rest, wire := (pre.map fun w => Output.hostWrite w.addr w.bytes).reverse ++ s.wire } := by
  obtain ⟨-, -, hset, -⟩ := hs
  have hsends : s.ep.sends = true := Endpoint.sends_of_carries hc
  have hsent := State.sendPlain_of hp hplain hrest
  have hnone : s.sendPlain.plainDue = false := by
    rw [hsent]
    cases rest with
    | nil => simp [State.plainDue]
    | cons w ws => simpa [State.plainDue, HostWrite.isPlain] using fun _ => hrest w (by simp)
  have hsame : s.settle = s.sendPlain := by
    rw [State.settle_eq_sendPlain hset hsends]
    split
    · rfl
    · next hdue =>
      cases pre with
      | nil => rw [hsent, ← show s.posted = rest from hp]; rfl
      | cons w ws =>
        have hw : w.isPlain = true := by simp [HostWrite.isPlain, hplain w (by simp)]
        simp [State.plainDue, hp, hsends, hw] at hdue
  have hset' : s.sendPlain.settled = true := by
    have hfail : s.sendPlain.writesFail = false ∧ s.writesFail = false := by simp [State.writesFail, hsends]
    simp only [State.settled, hfail.1, hfail.2] at hset ⊢
    exact hset
  rw [hsame, ← hsent, State.settle_eq_sendPlain hset' (by simpa using hsends), if_neg (by simp [hnone])]

end

/-- Two states that settle to the same are the same to a command. -/
theorem next_act_congr {s t : State} (h : s.settle = t.settle) {a b : Bool} (ha : a = true) (hb : b = true)
    (k : State → State) :
    (.next (if a then s.act k else s) : Host.Outcome State Fault Refusal) = .next (if b then t.act k else t) := by
  rw [if_pos ha, if_pos hb, State.act, State.act, h]

/-! ## A write that brings something about -/

theorem State.nextEnd_single {s : State} {w : HostWrite} (h : s.posted = [w]) (hw : w.ends ≠ .plain) :
    s.nextEnd = some w := by
  simp [State.nextEnd, h, HostWrite.isPlain, hw]

/-- The only write in flight has gone out. -/
def State.sentLast (s : State) (w : HostWrite) : State :=
  { s with posted := [], wire := Output.hostWrite w.addr w.bytes :: s.wire }

theorem State.sendWrites_single {s : State} {w : HostWrite} (h : s.posted = [w]) (hw : w.ends ≠ .plain) :
    s.sendWrites = s.sentLast w := by
  simp [State.sendWrites, h, HostWrite.isPlain, hw, HostWrite.output, State.sentLast]

/-- WRITE_BACK_COMPLETE of the only write in flight. -/
theorem exec_writeBackComplete {s : State} {w : HostWrite} {wb : WriteBack} {rest : List WriteBack} (hr : s.ready)
    (hc : s.carries) (hp : s.posted = [w]) (hends : w.ends = .writeBack) (hwb : s.evt.writeBacks = wb :: rest) :
    exec .writeBackComplete s = .next ((s.sentLast w).completeWriteBack wb rest) := by
  have hk : (match s.nextEnd, s.evt.writeBacks with
      | some w, wb :: rest => if w.ends = .writeBack then s.sendWrites.completeWriteBack wb rest else s
      | _, _ => s) = (s.sentLast w).completeWriteBack wb rest := by
    simp only [State.nextEnd_single hp (by simp [hends]), hwb, if_pos hends,
      State.sendWrites_single hp (by simp [hends])]
  have hep : ((s.sentLast w).completeWriteBack wb rest).ep = s.ep := by
    unfold State.completeWriteBack State.sentLast
    dsimp only
    split <;> simp
  refine (portedIO_of_carries hr hc ?_ ?_).trans (congrArg _ hk)
  · exact (congrArg (fun t : State => t.ep.linkUp) hk).trans (by rw [hep])
  · exact (congrArg (fun t : State => t.ep.busMaster) hk).trans (by rw [hep])

section
variable {u : State} {wb : WriteBack} {x : EvtBlock} (hw : u.prt.chains ≠ .waitDone)
  (hm : mapWritten wb u.evt.blocks = [x])
include hw hm

/-- A block with entries left, or that the walk is still in, stays in flight. -/
theorem State.completeWriteBack_stays (rest : List WriteBack) (hx : x.finished = false) (hs : u.evt.ctx.state ≠ .stopping) :
    u.completeWriteBack wb rest = { u with evt := { u.evt with writeBacks := rest, blocks := [x] } } := by
  simp only [State.completeWriteBack, State.finishEvent, hm, List.filter, hx]
  rw [State.post_eq (by exact hw)]
  simp [hs]

/-- A block that the walk has left and of which nothing is outstanding is finished. -/
theorem State.completeWriteBack_finishes (rest : List WriteBack) (hx : x.finished = true) (hu : x.unfinished = false)
    (hs : u.evt.ctx.state ≠ .stopping) : u.completeWriteBack wb rest = { u with
      posted := u.posted ++ x.writes .none blockDone, evt := { u.evt with writeBacks := rest, blocks := [] } } := by
  simp only [State.completeWriteBack, State.finishEvent, hm, List.filter, hx, hu]
  rw [State.post_eq (by exact hw)]
  simp [hs]

/-- The last entry outstanding finishes a STOP. -/
theorem State.completeWriteBack_stops (rest : List WriteBack) (hx : x.left = false) (ho : x.outstanding = 0)
    (hs : u.evt.ctx.state = .stopping) : u.completeWriteBack wb rest = { u with
      posted := u.posted ++ x.writes .stop blockPartial
      evt := { u.evt with
        writeBacks := rest, blocks := [], ctx := { u.evt.ctx with state := .inactive, walk := .none } } } := by
  have hfin : x.finished = false := by simp [EvtBlock.finished, hx]
  simp only [State.completeWriteBack, State.finishEvent, hm, List.filter, hfin]
  rw [State.post_eq (by exact hw)]
  simp only [Bool.not_false, List.flatMap_nil, List.append_nil]
  rw [if_pos (by exact ⟨hs, by simp [State.outstanding, ho]⟩), State.finishStop_eq (by exact hw)]
  simp [hx]

end

theorem State.leaveFinished_sameBus (s : State) (c : Chain) : s.sameBus (s.leaveFinished c) := by
  unfold State.leaveFinished
  generalize (s.ctx c).walk = w
  cases (s.ctx c).state with
  | active => cases w with
    | finishing next => cases next with
      | none => simp [State.sameBus, State.readNext]
      | some a => exact s.followNext_sameBus ..
    | _ => exact ⟨rfl, rfl⟩
  | _ => exact ⟨rfl, rfl⟩

theorem State.leaveFinished_idle {s : State} {c : Chain} (h : (s.ctx c).state ≠ .active) : s.leaveFinished c = s := by
  unfold State.leaveFinished
  cases hst : (s.ctx c).state with
  | active => exact absurd hst h
  | _ => rfl

theorem State.leaveFinished_good {s : State} {c : Chain} (h : (s.ctx c).state = .active)
    (hwalk : (s.ctx c).walk = .finishing none) : s.leaveFinished c = s.readNext c := by
  simp only [State.leaveFinished, h, hwalk]

theorem State.leaveFinished_bad {s : State} {c : Chain} {a : BitVec 64} (h : (s.ctx c).state = .active)
    (hwalk : (s.ctx c).walk = .finishing (some a)) : s.leaveFinished c = s.followNext c a := by
  simp only [State.leaveFinished, h, hwalk]

/-- What the completion of the only write in flight, a block's final one, leaves. -/
def State.finishedLast (s : State) (w : HostWrite) (notify leave : Bool) : State :=
  let sent := (s.sentLast w).notifyIf notify (finishedCause w.chain)
  if leave then sent.leaveFinished w.chain else sent

/-- BLOCK_STATE_WRITE_COMPLETE of the only write in flight. -/
theorem exec_blockStateWriteComplete {s : State} {w : HostWrite} {notify leave : Bool} (hr : s.ready)
    (hc : s.carries) (hw : s.prt.chains ≠ .waitDone) (hp : s.posted = [w]) (hends : w.ends = .final notify leave) :
    exec (.blockStateWriteComplete w.chain) s = .next (s.finishedLast w notify leave) := by
  have hrun : ((s.sentLast w).notifyIf notify (finishedCause w.chain)).halted = false :=
    State.halted_eq_false (by simpa [State.sentLast] using hw)
  have hk : (match s.nextEnd with
      | some v =>
        match v.ends with
        | .final notify leave =>
          if v.chain = w.chain then
            let s1 := s.sendWrites.notifyIf notify (finishedCause w.chain)
            if leave && !s1.halted then s1.leaveFinished w.chain else s1
          else s
        | _ => s
      | none => s) = s.finishedLast w notify leave := by
    simp only [State.nextEnd_single hp (by simp [hends]), hends, if_true,
      State.sendWrites_single hp (by simp [hends]), hrun, Bool.not_false, Bool.and_true]
    rfl
  have hbus : s.sameBus (s.finishedLast w notify leave) := by
    have hsent : s.sameBus ((s.sentLast w).notifyIf notify (finishedCause w.chain)) := by
      simp [State.sameBus, State.sentLast]
    unfold State.finishedLast
    dsimp only
    split
    · have hleft := ((s.sentLast w).notifyIf notify (finishedCause w.chain)).leaveFinished_sameBus w.chain
      exact ⟨hleft.1.trans hsent.1, hleft.2.trans hsent.2⟩
    · exact hsent
  refine (portedIO_of_carries hr hc ?_ ?_).trans (congrArg _ hk)
  · exact (congrArg (fun t : State => t.ep.linkUp) hk).trans hbus.1
  · exact (congrArg (fun t : State => t.ep.busMaster) hk).trans hbus.2

/-- Settles O54: the plain writes by what settling comes to, the others by the state of their block. -/
theorem writesComplete : Obligations.WritesComplete := by
  refine ⟨fun c s pre rest hs hc hp hplain hrest => ?_,
    fun s w wb rest b hr hc hw hp hends hwb hb haddr hout hbad hun => ?_,
    fun s c w notify leave hcap hr hc hw hp hch hends => ?_⟩
  · have hsettle := State.settle_sent hp hplain hrest hs hc
    obtain ⟨hpow, hosc, -, -⟩ := id hs
    intro sent
    have hclock : (s.powered && s.osc) = true := by simp [hpow, hosc]
    have hlink : (s.powered && s.ep.linkUp) = true := by simp [hpow, hc.1]
    have hseen : s.ep.configured = true → (s.powered && s.ep.seen) = true := fun h => by
      simp [hpow, Endpoint.seen, hc.1, h]
    cases c
    case powerOn | conventionalReset | supplyOutOfRange | oscillatorStop | oscillatorReturn | callOpenTimer
      | closeWindowTimer | closeTimer | alarmTimer | dmaWriteFailed | registerWriteIgnored | chainsResetEffect
      | full => exact True.intro
    case vectorUnmasked => exact next_act_congr hsettle hlink (by exact hlink) _
    case start | resume | stop | chainCommandUndefined | chainAddrWrite | noticeClear | noticeEnableWrite | lines
      | auctions | chains => exact fun hconf => next_act_congr hsettle (hseen hconf) (by exact hseen hconf) _
    case blockHeaderRead | nextAddressRead | slotHeadRead | writeBackComplete | blockStateWriteComplete | recordPlace
      | captureDoneComplete | dmaReadFailed | dmaReadTimeout => exact next_act_congr hsettle hpow (by exact hpow) _
    all_goals exact next_act_congr hsettle hclock (by exact hclock) _
  · intro low high after finish sent
    have hrun := exec_writeBackComplete hr hc hp hends hwb
    have hmap : mapWritten wb (s.sentLast w).evt.blocks = [after] := by
      simp only [State.sentLast, hb, mapWritten, haddr, hout, and_self, if_true]
      rfl
    refine ⟨fun hstay hstop => ?_, fun hleft hone hstop => ?_, fun hleft hone hstop => ?_⟩
    · have hfin : after.finished = false := by
        rcases hstay with h | h
        · simp [after, EvtBlock.finished, h]
        · simp [after, EvtBlock.finished]; omega
      rw [hrun, State.completeWriteBack_stays (by exact hw) hmap rest hfin (by exact hstop)]
      rfl
    · rw [hrun, State.completeWriteBack_finishes (by exact hw) hmap rest (by simp [after, EvtBlock.finished, hleft, hone])
        hun (by exact hstop)]
      simp only [EvtBlock.writes, finishWrites_eq, after, hbad]
      rfl
    · rw [hrun, State.completeWriteBack_stops (by exact hw) hmap rest hleft (by simp [after, hone])
        (by exact hstop)]
      simp only [EvtBlock.writes, finishWrites_eq, after, hbad]
      rfl
  · subst hch
    intro x sent run
    have hrun : run = .next (s.finishedLast w notify leave) := exec_blockStateWriteComplete hr hc hw hp hends
    have hcause : finishedCause w.chain = if w.chain = .control then .ctlDone else .evtDone := by
      cases hch : w.chain with
      | control => rfl
      | event => rfl
      | capture => exact absurd hch hcap
    have hsent : (s.sentLast w).notifyIf notify (finishedCause w.chain) = sent := by rw [hcause]; rfl
    have hx : sent.ctx w.chain = x := by
      cases hch : w.chain <;> simp [State.ctx, sent, x, hch]
    rw [hrun, State.finishedLast, hsent]
    refine ⟨fun hstay => ?_, fun hleave ha hwalk => ?_, fun a hleave ha hwalk h0 hal => ?_⟩
    · split
      · next hleave =>
        rw [State.leaveFinished_idle (hx ▸ hstay.resolve_left (by simp [hleave]))]
      · rfl
    · rw [if_pos hleave, State.leaveFinished_good (hx ▸ ha) (hx ▸ hwalk), State.readNext, hx]
    · rw [if_pos hleave, State.leaveFinished_bad (hx ▸ ha) (hx ▸ hwalk), State.followNext, if_neg h0,
        if_neg (by rw [misaligned_iff]; exact not_not.2 hal), State.enterBlock, hx]

end Sys2Proof.Machine
end

section
/-! The capture chain's packing (O56). -/

namespace Sys2Proof.Machine

open Sys2Proof

theorem State.closeBlock_eq {s : State} (hw : s.prt.chains ≠ .waitDone) (b : OpenBlock) (cause : CloseCause) :
    s.closeBlock b cause = { s with
      posted := s.posted ++ closeWrites b cause
      pst := { s.pst with block := none, flushAt := none }
      cap := { s.cap with closing := some { notify := b.notify } } } := by
  rw [State.closeBlock, State.post_eq (by exact hw)]

/-- The writes that place a record, as the statements spell them. -/
theorem placeWrites_eq (b : OpenBlock) (r : Record) : b.placeWrites r =
    (if b.count = 0 then [blockWrite .capture b.addr 8 [2#8]] else [])
      ++ [blockWrite .capture b.addr (64 + b.used) r.bytes] := by
  simp only [OpenBlock.placeWrites, takenWrite_eq]
  simp [blockWrite, plainWrite, bodyAddr, Nat.add_assoc]

/-- A record placed, before the push set is asked. -/
theorem State.placeRecord_eq {s : State} (hw : s.prt.chains ≠ .waitDone) (b : OpenBlock) (r : Record) :
    s.placeRecord b r =
      let placed : State := { s with
        posted := s.posted ++ b.placeWrites r
        pst := { s.pst with
          block := some (b.take r), placed := s.pst.placed + 1
          flushAt := if b.count = 0 then some (s.clock.own + s.pst.params.flush * 4294967296)
            else s.pst.flushAt } }
      if s.pst.params.push.getLsbD r.body.code then placed.closeBlock (b.take r) .push else placed := by
  rw [State.placeRecord, State.post_eq (by exact hw)]
  rfl

theorem State.placeRecord_ep (s : State) (b : OpenBlock) (r : Record) : (s.placeRecord b r).ep = s.ep := by
  unfold State.placeRecord
  dsimp only
  split <;> simp [State.closeBlock]

/-- RECORD_PLACE on a chain that has a record to place and an open block. -/
theorem exec_recordPlace {s : State} {b : OpenBlock} {r : Record} (hr : s.ready) (hc : s.carries)
    (hw : s.prt.chains ≠ .waitDone) (ha : s.cap.ctx.state = .active) (hb : s.pst.block = some b)
    (hrec : s.pst.records[s.pst.placed]? = some r) : exec .recordPlace s = .next
      (if b.used + r.length ≤ b.capacity then s.placeRecord b r else s.closeBlock b .full) := by
  have hk : (if s.cap.ctx.state == .active && !s.halted then
      match s.pst.block, s.unplaced with
      | some b, some r =>
        if b.used + r.length ≤ b.capacity then s.placeRecord b r else s.closeBlock b .full
      | _, _ => s
    else s) = if b.used + r.length ≤ b.capacity then s.placeRecord b r else s.closeBlock b .full := by
    rw [if_pos (by simp [ha, State.halted_eq_false hw])]
    simp only [hb, State.unplaced, hrec]
  have hep : (if b.used + r.length ≤ b.capacity then s.placeRecord b r else s.closeBlock b .full).ep = s.ep := by
    split
    · exact s.placeRecord_ep b r
    · simp [State.closeBlock]
  refine (portedIO_of_carries hr hc ?_ ?_).trans (congrArg _ hk)
  · exact (congrArg (fun t : State => t.ep.linkUp) hk).trans (by rw [hep])
  · exact (congrArg (fun t : State => t.ep.busMaster) hk).trans (by rw [hep])

/-- The state that a capture block's DONE write leaves. -/
def State.captured (s : State) (w : HostWrite) (k : CapClose) : State :=
  ((State.setRecords { s.sentLast w with cap := { s.cap with closing := none }, pst := { s.pst with placed := 0 } }
    (s.pst.records.drop s.pst.placed)).notifyIf (k.notify || s.pst.params.notifyAll) .capDone).leaveCapture

/-- A notice touches the notice register, the pending vector and the wire alone. -/
theorem State.notifyIf_frame (s : State) (b : Bool) (c : Cause) : s.notifyIf b c = { s with
    prt := (s.notifyIf b c).prt, ep := (s.notifyIf b c).ep, wire := (s.notifyIf b c).wire } := by
  cases b
  · rfl
  · simp only [State.notifyIf, if_true, State.notify, State.message]

/-- A change of the records touches the lines and what a notice touches besides. -/
theorem State.setRecords_frame (s : State) (rs : List Record) : s.setRecords rs = { s with
    pst := { s.pst with records := rs }, lines := (s.setRecords rs).lines, prt := (s.setRecords rs).prt,
    ep := (s.setRecords rs).ep, wire := (s.setRecords rs).wire } := by
  have h := State.notifyIf_frame ({ s with pst := { s.pst with records := rs } } : State).flowAll
    (decide (s.pst.records.length < s.pst.params.high) && decide (s.pst.params.high ≤ rs.length)) .pendingHigh
  rw [State.setRecords, h]
  rfl

theorem State.setRecords_port (s : State) (rs : List Record) :
    (s.setRecords rs).prt.chains = s.prt.chains ∧ s.sameBus (s.setRecords rs) := by
  simp [State.setRecords, State.sameBus, State.flowAll]

theorem State.leaveCapture_eq {u : State} (hw : u.prt.chains ≠ .waitDone)
    (h : u.cap.ctx.state = .active ∨ u.cap.ctx.state = .stopping) : u.leaveCapture = { u with
      cap := { u.cap with ctx := if u.cap.ctx.state = .stopping then { u.cap.ctx with state := .inactive, walk := .none }
        else { u.cap.ctx with walk := .next } } } := by
  have hhalt : ¬ u.halted = true := by simp [State.halted_eq_false hw]
  rcases h with h | h
  · have hnext : u.leaveCapture = u.readNext .capture := by simp only [State.leaveCapture, if_neg hhalt, h]
    rw [hnext, if_neg (by rw [h]; nofun)]
    rfl
  · have hstop : u.leaveCapture = u.setCtx .capture { u.cap.ctx with state := .inactive, walk := .none } := by
      simp only [State.leaveCapture, if_neg hhalt, h]
    rw [hstop, if_pos h]
    rfl

theorem exec_captureDoneComplete {s : State} {w : HostWrite} {k : CapClose} (hr : s.ready) (hc : s.carries)
    (hp : s.posted = [w]) (hends : w.ends = .captureDone) (hk : s.cap.closing = some k) :
    exec .captureDoneComplete s = .next (s.captured w k) := by
  have hplain : w.ends ≠ .plain := by simp [hends]
  have hk : (match s.nextEnd, s.cap.closing with
      | some w, some c =>
        if w.ends = .captureDone then
          let s1 := s.sendWrites
          let s2 : State := { s1 with
            cap := { s1.cap with closing := none }
            pst := { s1.pst with placed := 0 } }
          ((s2.setRecords (s.pst.records.drop s.pst.placed)).notifyIf
            (c.notify || s.pst.params.notifyAll) .capDone).leaveCapture
        else s
      | _, _ => s) = s.captured w k := by
    simp only [State.nextEnd_single hp hplain, hk, if_pos hends, State.sendWrites_single hp hplain]
    rfl
  have hbus : s.sameBus (s.captured w k) := by
    simp [State.sameBus, State.captured, State.sentLast, State.setRecords_port]
  refine (portedIO_of_carries hr hc ?_ ?_).trans (congrArg _ hk)
  · exact (congrArg (fun t : State => t.ep.linkUp) hk).trans hbus.1
  · exact (congrArg (fun t : State => t.ep.busMaster) hk).trans hbus.2

/-- Settles O56: a record by whether it fits and is pushed, the flush timer, and the DONE write. -/
theorem capturePacking : Obligations.CapturePacking := by
  refine ⟨fun s b r hr hc hw ha hb hrec => ?_, fun s b at_ hr hc hw hb hat hcount hle => ?_,
    fun s w k hr hc hw hp hends hk hstate => ?_⟩
  · intro b' writes close closing
    have hrun := exec_recordPlace hr hc hw ha hb hrec
    refine ⟨fun hfit hpush => ?_, fun hfit hpush => ?_, fun hfull => ?_⟩
    · rw [hrun, if_pos hfit, State.placeRecord_eq hw, placeWrites_eq]
      dsimp only
      rw [if_neg (Bool.eq_false_iff.1 hpush)]
      rfl
    · rw [hrun, if_pos hfit, State.placeRecord_eq hw, placeWrites_eq]
      dsimp only
      rw [if_pos hpush, State.closeBlock_eq (by exact hw), closeWrites_eq]
      rfl
    · rw [hrun, if_neg (Nat.not_le.2 hfull), State.closeBlock_eq hw, closeWrites_eq]
      rfl
  · have hflush : s.flush = s.closeBlock b .flush := by
      have hdue : s.flushDue = true := by simp [State.flushDue, hb, hat, hcount, hle, State.halted_eq_false hw]
      simp only [State.flush, hb, if_pos hdue]
    refine (tickedIO_of_ready hr _).trans ?_
    rw [hflush, next_busCheck hc (by simp [State.closeBlock]) (by simp [State.closeBlock]), State.closeBlock_eq hw, closeWrites_eq]
    rfl
  · let u : State := { s.sentLast w with cap := { s.cap with closing := none }, pst := { s.pst with placed := 0 } }
    let v : State := (u.setRecords (s.pst.records.drop s.pst.placed)).notifyIf (k.notify || s.pst.params.notifyAll)
      .capDone
    have hcap : v.cap = { s.cap with closing := none } := by simp [v, u]
    have hleft : s.captured w k = _ := State.leaveCapture_eq (u := v) (by simpa [v, u, State.sentLast, State.setRecords_port] using hw)
      (by rw [hcap]; exact hstate)
    refine ⟨_, exec_captureDoneComplete hr hc hp hends hk, ?_, ?_, fun hn => ?_, ?_, ?_⟩
    · simp [State.captured, State.sentLast]
    · simp [State.captured, State.sentLast]
    · rw [hleft]
      exact State.notifyIf_notice (by simpa using hn)
    · rw [hleft, hcap]
    · rw [hleft]
      have hv : v = _ := State.notifyIf_frame ..
      have hu := u.setRecords_frame (s.pst.records.drop s.pst.placed)
      rw [hu] at hv
      rw [hv]
      rfl

end Sys2Proof.Machine
end

section
/-! Causes stay set, and timers reached run out (O13, O59). -/

namespace Sys2Proof.Machine

open Sys2Proof

/-! ## Causes stay set but by a host's clear (R183) -/

/-- From `s` to `t` every cause that was set stays set. -/
structure State.KeepsNotices (s t : State) : Prop where
  notice : ∀ i : Nat, s.prt.notice.getLsbD i = true → t.prt.notice.getLsbD i = true

theorem State.KeepsNotices.of_prt {s t : State} (h : t.prt = s.prt) : s.KeepsNotices t := ⟨fun i hi => by rw [h]; exact hi⟩

theorem State.KeepsNotices.refl (s : State) : s.KeepsNotices s := ⟨fun _ => id⟩

theorem State.KeepsNotices.trans {s t u : State} (h : s.KeepsNotices t) (k : t.KeepsNotices u) : s.KeepsNotices u :=
  ⟨fun i => k.notice i ∘ h.notice i⟩

theorem State.KeepsNotices.ite {s a b : State} {c : Prop} [Decidable c] (ha : s.KeepsNotices a)
    (hb : s.KeepsNotices b) : s.KeepsNotices (if c then a else b) := by
  split
  · exact ha
  · exact hb

theorem State.KeepsNotices.foldl {α : Type} {f : State → α → State} (hf : ∀ (s : State) (a : α), s.KeepsNotices (f s a))
    (l : List α) (s : State) : s.KeepsNotices (l.foldl f s) := by
  induction l generalizing s with
  | nil => exact .refl s
  | cons a l ih => exact (hf s a).trans (ih _)

theorem State.Signals.keepsNotices {s t : State} (h : s.Signals t) : s.KeepsNotices t := ⟨h.notice⟩

theorem State.KeepsNotices.thenNotify {s t : State} (h : s.KeepsNotices t) (c : Cause) : s.KeepsNotices (t.notify c) :=
  h.trans (t.notify_signals c).keepsNotices

theorem State.enterFault_keepsNotices (s : State) (c : Chain) (f : FaultCause) (a : BitVec 64) :
    s.KeepsNotices (s.enterFault c f a) := .thenNotify (.of_prt (by simp)) _

theorem State.KeepsNotices.thenFault {s t : State} (h : s.KeepsNotices t) (c : Chain) (f : FaultCause)
    (a : BitVec 64) : s.KeepsNotices (t.enterFault c f a) := h.trans (t.enterFault_keepsNotices c f a)

theorem State.readFault_keepsNotices (s : State) (c : Chain) : s.KeepsNotices (s.readFault c) := by
  unfold State.readFault
  dsimp only
  refine .trans ?_ (State.enterFault_keepsNotices ..)
  exact .ite (.of_prt (by simp [State.mapCurrent])) (.refl s)

theorem State.writeFault_keepsNotices (s : State) (c : Chain) : s.KeepsNotices (s.writeFault c) := by
  have hdrop : s.KeepsNotices (s.dropWrites c) := .of_prt (by simp)
  cases c with
  | control => exact hdrop.trans (State.enterFault_keepsNotices ..)
  | event => exact .thenFault (by exact ⟨hdrop.notice⟩) ..
  | capture => exact .ite ⟨hdrop.notice⟩ (.thenFault (by exact ⟨hdrop.notice⟩) ..)

theorem State.failWrites_keepsNotices (s : State) : s.KeepsNotices s.failWrites :=
  .ite (.foldl (fun t c => .ite (t.writeFault_keepsNotices c) (.refl t)) _ s) (.refl s)

theorem State.failReads_keepsNotices (old s : State) : s.KeepsNotices (old.failReads s) :=
  .ite (.refl s) (.foldl (fun t c => .ite (t.readFault_keepsNotices c) (.refl t)) _ s)

theorem State.busCheck_keepsNotices (old s : State) : s.KeepsNotices (old.busCheck s) :=
  s.failWrites_keepsNotices.trans (State.failReads_keepsNotices ..)

theorem State.setRecords_keepsNotices (s : State) (rs : List Record) : s.KeepsNotices (s.setRecords rs) :=
  State.KeepsNotices.trans (t := ({ s with pst := { s.pst with records := rs } } : State).flowAll) (.of_prt rfl)
    (State.notifyIf_signals ..).keepsNotices

theorem State.discardRecords_keepsNotices (s : State) : s.KeepsNotices s.discardRecords := by
  unfold State.discardRecords
  split
  · exact s.left_signals.keepsNotices.trans (.of_prt (by simp))
  · exact .refl s

theorem State.chainsEffect_keepsNotices (s : State) : s.KeepsNotices s.chainsEffect := by
  let base : State := { s.abandonWrites with
    ctl := { s.ctl with ctx := s.ctl.ctx.reset }
    evt := s.evt.reset
    cap := { ctx := s.cap.ctx.reset, closing := none }
    pst := { s.pst with placed := 0, block := none, flushAt := none } }
  have hbase : s.KeepsNotices base := .of_prt (by simp [base])
  have hset : s.KeepsNotices (base.discardRecords.setRecords []) :=
    (hbase.trans base.discardRecords_keepsNotices).trans (State.setRecords_keepsNotices ..)
  exact .ite (.thenNotify (by exact ⟨hset.notice⟩) _) ⟨hset.notice⟩

theorem State.auctionsEffect_keepsNotices (s : State) : s.KeepsNotices s.auctionsEffect := by
  have hreset : s.KeepsNotices s.resetAuctions := .of_prt (by simp)
  have habandon : s.KeepsNotices s.resetAbandons :=
    (hreset.trans s.resetAuctions.left_signals.keepsNotices).trans
      (.foldl (fun t g => .of_prt (by simp)) _ _)
  exact .ite (.thenNotify (by exact ⟨hreset.notice⟩) _) (.ite ⟨habandon.notice⟩ ⟨fun _ => id⟩)

theorem State.settleChains_keepsNotices (s : State) : s.KeepsNotices s.settleChains := by
  have hscope : s.KeepsNotices s.settleScope := .ite s.chainsEffect_keepsNotices (.refl s)
  have hauctions : s.KeepsNotices s.settleScope.settleAuctions :=
    hscope.trans (.ite s.settleScope.auctionsEffect_keepsNotices (.refl _))
  have hslots : s.settleScope.settleAuctions.KeepsNotices s.settleScope.settleAuctions.settleControl.settleEvent :=
    .of_prt (by simp)
  exact (hauctions.trans hslots).trans (State.busCheck_keepsNotices ..)

theorem State.keep_keepsNotices {s : State} {k : State → State} (hk : ∀ t : State, t.KeepsNotices (k t)) :
    s.KeepsNotices (s.keep k) := by
  rcases s.keep_cases k with h | h <;> rw [h]
  · exact hk s
  · exact s.done_signals.keepsNotices.trans (hk _)

theorem State.recognizeEdge_keepsNotices (s : State) (k : CheckInput) (now : Stamp) :
    s.KeepsNotices (s.recognizeEdge k now) := by
  unfold State.recognizeEdge
  split
  · exact .refl s
  · exact .ite (State.KeepsNotices.trans (.of_prt (by simp)) (State.notifyIf_signals ..).keepsNotices) (.refl s)

theorem State.closePeriod_keepsNotices (s : State) : s.KeepsNotices s.closePeriod := by
  have h1 : s.KeepsNotices s.work.settleJudge := s.work_signals.keepsNotices.trans (.of_prt (by simp))
  have h2 (t : State) : t.KeepsNotices ((t.recognizeEdge .chk0 t.now).recognizeEdge .chk1 (t.recognizeEdge .chk0 t.now).now) :=
    (t.recognizeEdge_keepsNotices ..).trans (State.recognizeEdge_keepsNotices ..)
  have hemit (t : State) : t.KeepsNotices (t.emitBoundary t) := .of_prt (by simp)
  have hflush (t : State) : t.KeepsNotices t.flush := .of_prt (by simp)
  have h3 (t : State) : t.KeepsNotices (if t.boundaryDue then t.emitBoundary t else t).flush :=
    (State.KeepsNotices.ite (hemit t) (.refl t)).trans (hflush _)
  exact (h1.trans (h2 _)).trans (h3 _)

/-! ## A reached alarm runs out (R96, R119) -/

/-- The alarm is due, or an alarm has been announced. -/
def State.AlarmKnown (s : State) (a : Fin 8) : Prop := s.alarmDue a = true ∨ s.prt.notice.getLsbD 11 = true

theorem State.notify_alarm (s : State) : (s.notify .alarm).prt.notice.getLsbD 11 = true :=
  State.notifyIf_notice (s := s) (b := true) (c := .alarm) rfl

theorem State.settleAlarm_announces {s : State} {a : Fin 8} (h : s.alarmDue a = true) (cls : TraceClass) :
    (s.settleAlarm cls a).prt.notice.getLsbD 11 = true := by
  rw [State.settleAlarm, if_pos h, State.runAlarm]
  cases ha : s.alarm a with
  | none => simp [State.alarmDue, ha] at h
  | some x => exact State.notify_alarm _

/-- Alarms that run out leave a due one due, or have announced one. -/
theorem State.settleAlarm_known {s : State} {a : Fin 8} (h : s.AlarmKnown a) (cls : TraceClass) (b : Fin 8) :
    (s.settleAlarm cls b).AlarmKnown a := by
  by_cases hb : s.alarmDue b = true
  · exact .inr (State.settleAlarm_announces hb cls)
  · rw [State.settleAlarm, if_neg hb]
    exact h

theorem State.settleAlarms_known {a : Fin 8} (cls : TraceClass) (l : List (Fin 8)) {s : State} (h : s.AlarmKnown a) :
    (l.foldl (State.settleAlarm cls) s).AlarmKnown a := by
  induction l generalizing s with
  | nil => exact h
  | cons b l ih => exact ih (State.settleAlarm_known h cls b)

theorem State.settleAlarm_keepsNotices (cls : TraceClass) (s : State) (a : Fin 8) :
    s.KeepsNotices (s.settleAlarm cls a) := .ite (s.runAlarm_signals ..).keepsNotices (.refl s)

theorem State.settleAlarms_announce {a : Fin 8} (cls : TraceClass) {s : State} (h : s.AlarmKnown a) :
    (allAlarms.foldl (State.settleAlarm cls) s).prt.notice.getLsbD 11 = true := by
  obtain ⟨before, after, hl⟩ := List.append_of_mem (show a ∈ allAlarms from List.mem_finRange a)
  rw [hl, List.foldl_append, List.foldl_cons]
  refine (State.KeepsNotices.foldl (State.settleAlarm_keepsNotices cls) after _).notice 11 ?_
  rcases State.settleAlarms_known cls before h with hdue | hset
  · exact State.settleAlarm_announces hdue cls
  · exact (State.settleAlarm_keepsNotices cls _ a).notice 11 hset

theorem State.settleGroup_alarm (cls : TraceClass) (s : State) (g : Fin 64) (a : Fin 8) :
    (s.settleGroup cls g).alarm a = s.alarm a := by
  have hcall (t : State) (n : Nat) : (t.runCallOpen g n cls false false).alarm a = t.alarm a := by
    simp [State.runCallOpen]
  have hwindow (t : State) : (t.runWindow g cls false).alarm a = t.alarm a := by simp [State.runWindow]
  have hclose (t : State) : (t.runClose g cls false).alarm a = t.alarm a := by
    unfold State.runClose
    split <;> simp [State.createClose]
  unfold State.settleGroup
  dsimp only
  split_ifs <;> simp only [hcall, hwindow, hclose]

theorem State.settleGroups_alarmDue (cls : TraceClass) (s : State) (a : Fin 8) :
    (allGroups.foldl (State.settleGroup cls) s).alarmDue a = s.alarmDue a := by
  have halarm (l : List (Fin 64)) (t : State) : (l.foldl (State.settleGroup cls) t).alarm a = t.alarm a := by
    induction l generalizing t with
    | nil => rfl
    | cons g l ih => rw [List.foldl_cons, ih, State.settleGroup_alarm]
  simp only [State.alarmDue, halarm, State.reached, State.instant, State.foldSettleGroup_same]

theorem State.timersDue_of_alarm {s : State} {a : Fin 8} (h : s.alarmDue a = true) : s.timersDue = true := by
  simp only [State.timersDue, Bool.or_eq_true, List.any_eq_true]
  exact .inr ⟨a, List.mem_finRange a, h⟩

/-- A reached alarm has run out once nothing of the present is left to do. -/
theorem State.settle_announces {s : State} {a : Fin 8} (ho : s.osc = true) (hw : s.owed = false)
    (h : s.alarmDue a = true) : s.settle.prt.notice.getLsbD 11 = true := by
  have hstill : ¬ s.still = true := by simp [State.still, State.settled, ho, State.timersDue_of_alarm h]
  rw [State.settle, if_neg hstill]
  have hrest (t : State) (htb : t.tb = s.tb) (hclock : t.clock = s.clock) (hdu : t.du = s.du) (hatu : t.atu = s.atu)
      (hosc : t.osc = s.osc) : t.settleRest.prt.notice.getLsbD 11 = true := by
    have hdue (u : State) (htb : u.tb = s.tb) (hclock : u.clock = s.clock) (hatu : u.atu = s.atu) :
        u.alarmDue a = true := by
      rw [← h]
      simp only [State.alarmDue, State.alarm, State.reached, State.instant, htb, hclock, hatu]
    have hset : ¬ t.settled = true := by
      simp [State.settled, hosc, ho, State.timersDue_of_alarm (hdue t htb hclock hatu)]
    have howed : t.owed = false := by
      rw [← hw]
      simp only [State.owed, State.workDue, State.actionDue, State.missingDue, State.holdoverDue, hosc, hclock, hdu]
    have hfail := hdue t.failWrites (by simp [htb]) (by simp [hclock]) (by simp [hatu])
    rw [State.settleRest, if_neg hset, State.keep_eq howed]
    refine (State.keep_keepsNotices State.settleChains_keepsNotices).notice 11 ?_
    have hrun : t.failWrites.timersDue = true := State.timersDue_of_alarm hfail
    rw [State.tickTimers, if_pos (by simp [hosc, ho]), State.runTimers, if_pos hrun, State.settleTimers, if_pos hrun]
    have hknown : (allGroups.foldl (State.settleGroup t.failWrites.done.du.cls) t.failWrites).AlarmKnown a := by
      refine .inl ?_
      rw [State.settleGroups_alarmDue]
      exact hfail
    have hset := State.settleAlarms_announce t.failWrites.done.du.cls hknown
    simpa only [State.promise_same] using hset
  split
  · exact hrest _ (by simp) (by simp) (by simp) (by simp) (by simp)
  · exact hrest _ rfl rfl rfl rfl rfl

end Sys2Proof.Machine
end

section
/-! A period of the oscillator, its stop and its return (O13). -/

namespace Sys2Proof.Machine

open Sys2Proof

/-! ## Timers that an action instant leaves (R96, R114) -/

theorem Instant.crossed_self (i t : Instant) : Instant.crossed i i t = false := by
  have hble : i.ble i = true := by simp [Instant.ble]
  rw [Instant.crossed, if_pos hble, Bool.and_eq_false_iff]
  by_cases h : i.blt t = true
  · refine .inr ?_
    rw [Bool.eq_false_iff]
    simp only [ne_eq, Instant.blt, Instant.ble, Bool.or_eq_true, Bool.and_eq_true, decide_eq_true_eq, beq_iff_eq] at h ⊢
    omega
  · exact .inl (Bool.eq_false_iff.2 h)

theorem State.timersDue_eq_false {s : State} : s.timersDue = false ↔
    (∀ g : Fin 64, s.callOpenDue g = false ∧ s.windowDue g = false ∧ s.closeDue g = false)
      ∧ ∀ a : Fin 8, s.alarmDue a = false := by
  simp [State.timersDue, allGroups, allAlarms, List.any_eq_false, and_assoc]

/-- No timer is due where no instant lies between the start of the period and now. -/
theorem State.timersDue_of_stand {s : State} (h : s.clock.prev = s.instant) : s.timersDue = false := by
  have hreach (t : Instant) : s.reached t = false := by rw [State.reached, h]; exact Instant.crossed_self _ _
  refine State.timersDue_eq_false.2 ⟨fun g => ⟨?_, ?_, ?_⟩, fun a => ?_⟩
  · simp [State.callOpenDue, hreach]
  · simp [State.windowDue, hreach]
  · rw [State.closeDue]
    split <;> simp [hreach]
  · rw [State.alarmDue]
    split <;> simp [hreach]

/-- From `s` to `t` judged seconds stay judged, and no timer becomes due. -/
structure State.AwaitsAs (s t : State) : Prop where
  judged : t.du.judged = s.du.judged
  timers : s.timersDue = false → t.timersDue = false

theorem State.AwaitsAs.refl (s : State) : s.AwaitsAs s := ⟨rfl, id⟩

theorem State.AwaitsAs.trans {s t u : State} (h : s.AwaitsAs t) (k : t.AwaitsAs u) : s.AwaitsAs u :=
  ⟨k.judged.trans h.judged, k.timers ∘ h.timers⟩

theorem State.AwaitsAs.ite {s a b : State} {c : Prop} [Decidable c] (ha : s.AwaitsAs a) (hb : s.AwaitsAs b) :
    s.AwaitsAs (if c then a else b) := by
  split
  · exact ha
  · exact hb

theorem State.timersDue_of_same {s t : State} (hp : t.clock.prev = s.clock.prev) (hi : t.instant = s.instant)
    (ha : t.atu = s.atu) : t.timersDue = s.timersDue := by
  simp only [State.timersDue, State.callOpenDue, State.windowDue, State.closeDue, State.alarmDue, State.group,
    State.alarm, State.reached, hp, hi, ha]

theorem State.AwaitsAs.of_same {s t : State} (hj : t.du.judged = s.du.judged) (hp : t.clock.prev = s.clock.prev)
    (hi : t.instant = s.instant) (ha : t.atu = s.atu) : s.AwaitsAs t :=
  ⟨hj, fun h => (State.timersDue_of_same hp hi ha).trans h⟩

theorem State.abandonGroup_awaitsAs (pre : Stamp) (cls : TraceClass) (s : State) (g : Fin 64) :
    s.AwaitsAs (s.abandonGroup pre cls g) := by
  refine ⟨by simp, fun h => ?_⟩
  unfold State.abandonGroup
  dsimp only
  split
  · rw [State.timersDue_eq_false] at h ⊢
    obtain ⟨hgroups, halarms⟩ := h
    refine ⟨fun k => ?_, halarms⟩
    by_cases hk : k = g
    · subst hk
      simp [State.callOpenDue, State.windowDue, State.closeDue]
    · have hgroup (u : State) (x : Group) : (u.setGroup g x).group k = u.group k := u.setGroup_group_ne x hk
      simp only [State.callOpenDue, State.windowDue, State.closeDue, State.create_group, hgroup]
      exact hgroups k
  · exact h

theorem State.abandonRunning_awaitsAs (s : State) (pre : Stamp) (cls : TraceClass) :
    s.AwaitsAs (s.abandonRunning pre cls) := by
  have h (l : List (Fin 64)) (t : State) : t.AwaitsAs (l.foldl (State.abandonGroup pre cls) t) := by
    induction l generalizing t with
    | nil => exact .refl t
    | cons g l ih => exact (State.abandonGroup_awaitsAs pre cls t g).trans (ih _)
  exact h _ s

/-- A counter that has been placed has reached no timer (R114). -/
theorem State.afterMove_stands {s : State} (pre post : Instant) (d : Int) (h : s.clock.prev = s.instant) :
    (s.afterMove pre post d).timersDue = false :=
  State.timersDue_of_stand (by simpa [State.instant] using h)

theorem State.applyStep_awaitsAs (s : State) (cls : TraceClass) (sec : Second) : s.AwaitsAs (s.applyStep cls sec) :=
  ⟨by simp, fun _ => State.afterMove_stands _ _ _ rfl⟩

theorem State.applySet_awaitsAs (s : State) (cls : TraceClass) (sec : Second) : s.AwaitsAs (s.applySet cls sec) := by
  refine ⟨by simp, fun h => ?_⟩
  have habandon := (s.abandonRunning_awaitsAs s.now cls).timers h
  unfold State.applySet
  dsimp only
  generalize s.abandonRunning s.now cls = u at habandon
  split
  · exact (State.timersDue_of_same (s := u) rfl rfl rfl).trans habandon
  · exact State.afterMove_stands _ _ _ rfl

theorem State.moveTime_awaitsAs (s : State) (cls : TraceClass) (sec : Second) (mv : Move) :
    s.AwaitsAs (s.moveTime cls sec mv) := by
  have h (d : Option Demand) : s.AwaitsAs { s with tb := { s.tb with demand := d } } := .of_same rfl rfl rfl rfl
  cases mv with
  | keep => exact .refl s
  | withdraw => exact h _
  | hold => exact h _
  | step => exact (h none).trans (State.applyStep_awaitsAs ..)
  | set => exact (h none).trans (State.applySet_awaitsAs ..)

theorem State.adoptOffset_instant (s : State) (sec : Second) : (s.adoptOffset sec).instant = s.instant := by
  unfold State.adoptOffset
  split <;> rfl

theorem State.workOf_awaitsAs (s : State) (sec : Second) : s.AwaitsAs (s.workOf sec) := by
  have h0 : s.AwaitsAs (State.setInc { s with du := s.duAfter sec (s.moveOf sec) }) := .of_same rfl rfl rfl rfl
  have h1 (t : State) (old : DState) : t.AwaitsAs (t.stateChanged old sec) :=
    .of_same (by simp) (by simp) (by simp [State.instant]) (by simp)
  have h2 (t : State) (newly : Bool) : t.AwaitsAs (t.holdDemand newly sec) :=
    .of_same (by simp) (by simp) (by simp [State.instant]) (by simp)
  have h3 (t : State) (old : TraceClass) (now : Stamp) (cls : TraceClass) : t.AwaitsAs (t.classChanged old now cls) :=
    .of_same (by simp) (by simp) (by simp [State.instant]) (by simp)
  have h4 (t : State) : t.AwaitsAs (t.adoptOffset sec) :=
    .of_same (by simp) (by simp) (t.adoptOffset_instant sec) (by simp)
  have h5 (t : State) (servo : Bool) : t.AwaitsAs (t.handSecond servo sec) :=
    .of_same (by simp) (by simp) (by simp [State.instant]) (by simp)
  exact (((((h0.trans (State.moveTime_awaitsAs _ s.du.cls sec _)).trans (h1 _ s.du.state)).trans
    (h2 _ _)).trans (h3 _ s.du.cls _ _)).trans (h4 _)).trans (h5 _ _)

theorem State.settleJudge_prev (s : State) : s.settleJudge.clock.prev = s.clock.prev := by
  unfold State.settleJudge
  split <;> rfl

theorem State.settleAdvance_awaitsAs (s v : State) : s.AwaitsAs (s.settleAdvance v) := by
  have hj : s.AwaitsAs s.settleJudge :=
    .of_same (by simp) s.settleJudge_prev (by simp [State.instant]) (by simp)
  exact .ite (hj.trans (.of_same rfl rfl rfl rfl)) hj

theorem State.actOn_awaitsAs (s : State) (sec : Second) : s.AwaitsAs (s.actOn sec) :=
  .ite ((s.settleAdvance_awaitsAs _).trans (State.workOf_awaitsAs ..)) (s.workOf_awaitsAs sec)

/-- The oldest judged second's work makes no timer due, and the others stay judged. -/
theorem State.takeAction_awaits {s : State} {sec : Second} {rest : List Second} (h : s.du.judged = sec :: rest) :
    s.takeAction.du.judged = rest ∧ (s.timersDue = false → s.takeAction.timersDue = false) := by
  have htake : s.takeAction = (State.actOn { s with du := { s.du with judged := rest } } sec).reading := by
    simp only [State.takeAction, h]
  rw [htake]
  have hact := State.actOn_awaitsAs { s with du := { s.du with judged := rest } } sec
  exact ⟨hact.judged, fun hs => (State.timersDue_of_same rfl rfl rfl).trans
    (hact.timers ((State.timersDue_of_same rfl rfl rfl).trans hs))⟩

/-! ## A period that has nothing left to do -/

theorem times_of_fixed {α : Type} {f : α → α} {a : α} (h : f a = a) (n : Nat) : times f n a = a := by
  induction n with
  | zero => rfl
  | succ n ih => rw [times, h, ih]

theorem State.work_of_none {s : State} (ha : s.actionDue = false) (hm : s.missingDue = false)
    (hh : s.holdoverDue = false) : s.work = s := by
  have hfix : (if s.actionDue then s.takeAction else s) = s := if_neg (by simp [ha])
  have hclose : s.closeActions = s := times_of_fixed (f := fun t : State => if t.actionDue then t.takeAction else t) hfix _
  simp [State.work, hclose, hm, hh]

theorem State.recognizeEdge_of_none {s : State} {k : CheckInput} (h : s.edgeDue (s.check k) = false) (now : Stamp) :
    s.recognizeEdge k now = s := by
  unfold State.recognizeEdge
  split
  · rfl
  · rw [if_neg (by simp [h])]

theorem State.flush_of_none {s : State} (h : s.flushDue = false) : s.flush = s := by
  unfold State.flush
  split
  · rw [if_neg (by simp [h])]
  · rfl

theorem State.closePeriod_of_done {s : State} (h : s.periodDone) : s.closePeriod = s := by
  obtain ⟨ha, hm, hh, hc, h0, h1, hb, hf⟩ := h
  have hjudge : s.settleJudge = s := if_neg (by simp [hc])
  have he0 : s.recognizeEdge .chk0 s.now = s := State.recognizeEdge_of_none h0 _
  have he1 : s.recognizeEdge .chk1 s.now = s := State.recognizeEdge_of_none h1 _
  simp only [State.closePeriod, State.work_of_none ha hm hh, hjudge, he0, he1, hb, Bool.false_eq_true, if_false,
    State.flush_of_none hf]

/-- The part that `s` becomes by work of the period has nothing to do of its own, if `s` has not. -/
theorem State.settled_of_same {s t : State} (hs : s.settled = true) (hosc : t.osc = s.osc) (hctl : t.ctl = s.ctl)
    (hevt : t.evt = s.evt) (hcap : t.cap = s.cap) (hpst : t.pst = s.pst) (hposted : t.posted = s.posted)
    (hchains : t.prt.chains = s.prt.chains) (hauctions : t.prt.auctions = s.prt.auctions)
    (hsends : t.ep.sends = s.ep.sends) (htimers : s.osc = true → s.timersDue = false → t.timersDue = false) :
    t.settled = true := by
  have h1 : t.writesFail = s.writesFail := by simp only [State.writesFail, hsends, hposted]
  have h2 : t.scopeDue = s.scopeDue := by simp only [State.scopeDue, State.halted, hchains, hcap, hosc, hpst]
  have h3 : t.auctionsDue = s.auctionsDue := by simp only [State.auctionsDue, hosc, hauctions]
  have h4 : t.slotDue = s.slotDue := by
    simp only [State.slotDue, State.controlRefusal, State.atSlot, State.walking, State.halted, State.ctx,
      State.eventRefusal, State.mayTakeEvent, State.outstanding, hosc, hctl, hevt, hpst, hchains] <;> rfl
  simp only [State.settled, h1, h2, h3, h4, hosc, Bool.and_eq_true, Bool.not_eq_true'] at hs ⊢
  obtain ⟨⟨⟨⟨hw, ht⟩, hsc⟩, hau⟩, hsl⟩ := hs
  refine ⟨⟨⟨⟨hw, ?_⟩, hsc⟩, hau⟩, hsl⟩
  cases ho : s.osc with
  | false => rfl
  | true => simpa [ho] using htimers ho (by simpa [ho] using ht)

/-! ## The only judged second's work (R36) -/

section
variable {s : State} {sec : Second} (hs : s.acts sec [])
include hs

theorem State.actionDue_of_acts : s.actionDue = true := by
  obtain ⟨-, hj, hlt⟩ := hs
  simp [State.actionDue, hj, hlt]

theorem exec_actionInstant : exec .actionInstant s = .next s.takeAction :=
  (ticked_of_ready hs.1 _).trans (congrArg _ (if_pos (State.actionDue_of_acts hs)))

theorem State.takeAction_actionDue : s.takeAction.actionDue = false := by
  simp [State.actionDue, (State.takeAction_awaits hs.2.1).1]

theorem State.work_of_acts (hm : s.takeAction.missingDue = false) (hh : s.takeAction.holdoverDue = false) :
    s.work = s.takeAction := by
  have hclose : s.closeActions = s.takeAction := by
    rw [State.closeActions, hs.2.1]
    exact if_pos (State.actionDue_of_acts hs)
  simp [State.work, hclose, hm, hh]

/-- With no timer of DU's due, the action instant leaves a part with nothing left to do. -/
theorem State.takeAction_ready (hm : s.takeAction.missingDue = false) (hh : s.takeAction.holdoverDue = false) :
    s.takeAction.ready := by
  obtain ⟨⟨hp, ho, hq⟩, hj, -⟩ := id hs
  have hstill := State.still_of_quiescent hq
  simp only [State.still, Bool.and_eq_true, Bool.not_eq_true'] at hstill
  have hsends : s.takeAction.ep.sends = s.ep.sends := by simp [Endpoint.sends]
  have hset : s.takeAction.settled = true :=
    State.settled_of_same hstill.1 (by simp) (by simp) (by simp) (by simp) (by simp) (by simp) (by simp) (by simp) hsends
      fun _ => (State.takeAction_awaits hj).2
  have hplain : s.takeAction.plainDue = false := by
    rw [← hstill.2]
    simp [State.plainDue, hsends]
  have howed : s.takeAction.owed = false := by
    simp [State.owed, State.workDue, State.takeAction_actionDue hs, hm, hh]
  refine ⟨by rw [← hp]; simp [State.powered], by rw [← ho]; simp, ?_⟩
  simp [State.quiescent, State.still, hset, hplain, howed]

theorem State.closePeriod_of_acts (hm : s.takeAction.missingDue = false) (hh : s.takeAction.holdoverDue = false) :
    s.closePeriod = s.takeAction.closePeriod := by
  rw [State.closePeriod, State.work_of_acts hs hm hh, State.closePeriod,
    State.work_of_none (State.takeAction_actionDue hs) hm hh]

end

theorem State.busCheck_congr {s t : State} (h : ∀ c, s.ctx c = t.ctx c) (u : State) : s.busCheck u = t.busCheck u := by
  simp only [State.busCheck, State.failReads, h]

/-! ## The stop (R190) -/

/-- What OSCILLATOR_STOP leaves of a part with nothing left to do. -/
def State.stopped (s : State) : State := s.busCheck { s.closePeriod with osc := false }

theorem exec_oscillatorStop {s : State} (hr : s.ready) : exec .oscillatorStop s = .next s.stopped := by
  obtain ⟨hp, ho, -⟩ := id hr
  have hon : (s.powered && s.osc) = true := by simp [hp, ho]
  exact (show exec .oscillatorStop s = _ from if_pos hon).trans (tickedIO_of_ready hr _)

/-- Settles O13: the stop by what its period still has to do. -/
theorem oscillator : Obligations.Oscillator := by
  refine ⟨fun s hr hdone hok => ?_, fun s hs => ?_, fun s t sec hs ht hm hh => ?_, fun s a hp ho hw ha => ?_,
    fun s => rfl, fun c s ho => ?_⟩
  · intro q carry
    have hclose := State.closePeriod_of_done hdone
    refine (tickedIO_of_ready hr _).trans ?_
    rw [hclose]
    refine congrArg Host.Outcome.next ((State.busCheck_of_same (by rfl) (by rfl) (fun c => by cases c <;> rfl)
      (State.writesFail_of_ready hr)).trans ?_)
    have hq : q / Config.unit = q / 4294967296 := rfl
    have hcarry : s.tb.carries = decide carry := rfl
    have htb : s.tb.advance = { s.tb with
        sec := if carry then (s.tb.sec + 1) % 281474976710656 else s.tb.sec
        ns := if carry then q / 4294967296 - 1000000000 else q / 4294967296
        frac := q % 4294967296 } := by
      obtain ⟨hsec, -⟩ := hok
      have hwrap : (if s.tb.sec + 1 ≥ Config.secondsWrap then 0 else s.tb.sec + 1) = (s.tb.sec + 1) % 281474976710656 := by
        simp only [Config.secondsWrap] at hsec ⊢
        split <;> omega
      by_cases hc : carry
      · rw [TB.advance, if_pos (by exact hc), hwrap]
        simp only [if_pos hc]
        rfl
      · rw [TB.advance, if_neg (by exact hc)]
        simp only [if_neg hc]
        rfl
    rw [State.advance, hcarry, htb]
    rfl
  · rcases hs with hp | ho | ⟨hr, hdone⟩
    · exact if_neg (by simp [hp])
    · exact if_neg (by simp [ho])
    · rw [exec_oscillatorStop hr, State.stopped, State.closePeriod_of_done hdone]
      exact congrArg Host.Outcome.next (State.busCheck_of_same (by rfl) (by rfl) (fun c => by cases c <;> rfl)
        (State.writesFail_of_ready hr))
  · rw [exec_actionInstant hs] at ht
    obtain rfl : s.takeAction = t := Host.Outcome.next.inj ht
    rw [exec_oscillatorStop hs.1, exec_oscillatorStop (State.takeAction_ready hs hm hh), State.stopped, State.stopped,
      State.closePeriod_of_acts hs hm hh]
    exact congrArg Host.Outcome.next (State.busCheck_congr (fun c => by cases c <;> simp [State.ctx]) _)
  · refine ⟨s.settle.keep fun v => v.busCheck { v.closePeriod with osc := false }, ?_, ?_, ?_⟩
    · have hon : (s.powered && s.osc) = true := by simp [hp, ho]
      exact (show exec .oscillatorStop s = _ from if_pos hon).trans (congrArg Host.Outcome.next (if_pos hon))
    · rcases s.settle.keep_cases (fun v => v.busCheck { v.closePeriod with osc := false }) with h | h <;> rw [h] <;> simp
    · have hstop (v : State) : v.KeepsNotices (v.busCheck { v.closePeriod with osc := false }) :=
        State.KeepsNotices.trans (by exact ⟨v.closePeriod_keepsNotices.notice⟩) (State.busCheck_keepsNotices ..)
      exact (State.keep_keepsNotices hstop).notice 11 (State.settle_announces ho hw ha)
  · have hunmet := State.meets_of_stopped ho
    cases c
    case powerOn | conventionalReset | supplyOutOfRange | oscillatorStop | oscillatorReturn | blockHeaderRead
      | nextAddressRead | slotHeadRead | writeBackComplete | blockStateWriteComplete | recordPlace | captureDoneComplete
      | dmaReadFailed | dmaReadTimeout | dmaWriteFailed | chainsResetEffect | start | resume | stop
      | chainCommandUndefined | chainAddrWrite | noticeClear | noticeEnableWrite | registerWriteIgnored | lines
      | auctions | chains | full | vectorUnmasked => exact True.intro
    all_goals exact exec_of_unmet hunmet

end Sys2Proof.Machine
end

section
/-! The host's reads of the register window (O59). -/

namespace Sys2Proof.Machine

open Sys2Proof

/-! ## Bits of a sum of fields -/

theorem extractLsb'_ofNat {w n : Nat} (k l : Nat) (h : n < 2 ^ w) :
    (BitVec.ofNat w n).extractLsb' k l = BitVec.ofNat l (n / 2 ^ k) := by
  apply BitVec.eq_of_toNat_eq
  simp [BitVec.extractLsb'_toNat, Nat.mod_eq_of_lt h, Nat.shiftRight_eq_div_pow]

theorem ofNat_congr {w m n : Nat} (h : m % 2 ^ w = n % 2 ^ w) : BitVec.ofNat w m = BitVec.ofNat w n := by
  apply BitVec.eq_of_toNat_eq
  simpa using h

theorem getLsbD_ofNat_of_lt {w n : Nat} (k : Nat) (h : n < 2 ^ w) :
    (BitVec.ofNat w n).getLsbD k = decide (n / 2 ^ k % 2 = 1) := by
  rw [BitVec.getLsbD_ofNat, Nat.testBit_eq_decide_div_mod_eq]
  by_cases hk : k < w
  · simp [hk]
  · have hpow : 2 ^ w ≤ 2 ^ k := Nat.pow_le_pow_right (by omega) (by omega)
    simp [hk, Nat.div_eq_of_lt (lt_of_lt_of_le h hpow)]

/-! ## PART_STATE (R178, R191) -/

theorem partWord_fields {st a b n e : Nat} (hst : st < 8) (ha : a ≤ 1) (hb : b ≤ 1) (hn : n < 2048) (he : e < 65536) :
    let word := BitVec.ofNat 32 (st + 8 * a + 16 * b + 32 * n + 65536 * e)
    word.extractLsb' 0 3 = BitVec.ofNat 3 st ∧ word.extractLsb' 3 1 = BitVec.ofNat 1 a
      ∧ word.getLsbD 4 = decide (b = 1) ∧ word.extractLsb' 5 11 = BitVec.ofNat 11 n
      ∧ word.extractLsb' 16 16 = BitVec.ofNat 16 e := by
  have hlt : st + 8 * a + 16 * b + 32 * n + 65536 * e < 2 ^ 32 := by omega
  intro word
  simp only [word, extractLsb'_ofNat _ _ hlt, getLsbD_ofNat_of_lt _ hlt]
  refine ⟨ofNat_congr ?_, ofNat_congr ?_, decide_eq_decide.2 ?_, ofNat_congr ?_, ofNat_congr ?_⟩ <;> omega

theorem State.partState_eq (v : State) : v.partState = BitVec.ofNat 32 (v.du.state.code
    + 8 * (if v.du.cls = .degraded then 1 else 0) + 16 * (if v.tb.demand.isSome then 1 else 0)
    + 32 * v.pst.records.length + 65536 * v.tb.epoch) := by
  unfold State.partState
  split_ifs <;> rfl

theorem DState.code_lt (x : DState) : x.code < 8 := by cases x <;> decide

/-- The fields of PART_STATE. -/
theorem State.partState_fields {v : State} (hlen : v.pst.records.length ≤ 1024) (hepoch : v.tb.epoch ≤ 65535) :
    v.partState.extractLsb' 0 3 = BitVec.ofNat 3 v.du.state.code
      ∧ v.partState.extractLsb' 3 1 = (if v.du.cls = .degraded then 1#1 else 0#1)
      ∧ v.partState.getLsbD 4 = v.tb.demand.isSome
      ∧ v.partState.extractLsb' 5 11 = BitVec.ofNat 11 v.pst.records.length
      ∧ v.partState.extractLsb' 16 16 = BitVec.ofNat 16 v.tb.epoch := by
  obtain ⟨h1, h2, h3, h4, h5⟩ := partWord_fields (a := if v.du.cls = .degraded then 1 else 0)
    (b := if v.tb.demand.isSome then 1 else 0) v.du.state.code_lt (by split <;> decide) (by split <;> decide)
    (Nat.lt_of_le_of_lt hlen (by decide)) (Nat.lt_of_le_of_lt hepoch (by decide))
  rw [v.partState_eq]
  refine ⟨h1, h2.trans ?_, h3.trans ?_, h4, h5⟩
  · split <;> rfl
  · cases v.tb.demand <;> rfl

/-! ## CHAIN_COMMAND (R180, R191) -/

theorem chainByte_fields {st park ignored fault : Nat} (hst : st < 8) (hp : park < 4) (hi : ignored ≤ 1) (hf : fault < 4) :
    let byte := BitVec.ofNat 8 (st + 8 * park + 32 * ignored + 64 * fault)
    byte.extractLsb' 0 3 = BitVec.ofNat 3 st ∧ byte.extractLsb' 3 2 = BitVec.ofNat 2 park
      ∧ byte.getLsbD 5 = decide (ignored = 1) ∧ byte.extractLsb' 6 2 = BitVec.ofNat 2 fault := by
  have hlt : st + 8 * park + 32 * ignored + 64 * fault < 2 ^ 8 := by omega
  intro byte
  simp only [byte, extractLsb'_ofNat _ _ hlt, getLsbD_ofNat_of_lt _ hlt]
  refine ⟨ofNat_congr ?_, ofNat_congr ?_, decide_eq_decide.2 ?_, ofNat_congr ?_⟩ <;> omega

theorem ParkKind.code_lt (x : ParkKind) : x.code < 4 := by cases x <;> decide

theorem FaultCause.code_lt (x : FaultCause) : x.code < 4 := by cases x <;> decide

theorem ChainState.code_lt (x : ChainState) : x.code < 8 := by cases x <;> decide

/-- The bytes of CHAIN_COMMAND are the chains'. -/
theorem State.chainReg_byte (s : State) : s.chainReg.extractLsb' 0 8 = s.ctl.ctx.byte
    ∧ s.chainReg.extractLsb' 8 8 = s.evt.ctx.byte ∧ s.chainReg.extractLsb' 16 8 = s.cap.ctx.byte := by
  unfold State.chainReg
  generalize s.ctl.ctx.byte = a, s.evt.ctx.byte = b, s.cap.ctx.byte = c
  refine ⟨?_, ?_, ?_⟩
  all_goals
    apply BitVec.eq_of_getLsbD_eq
    intro i hi
    grind

theorem ChainCtx.byte_fields (x : ChainCtx) :
    x.byte.extractLsb' 0 3 = BitVec.ofNat 3 x.state.code
      ∧ x.byte.extractLsb' 3 2 = (if x.state = .parked then
          (match x.park with | some k => BitVec.ofNat 2 k.code | none => 0#2) else 0#2)
      ∧ x.byte.getLsbD 5 = x.ignored
      ∧ x.byte.extractLsb' 6 2 = (if x.state = .fault then
          (match x.fault with | some k => BitVec.ofNat 2 k.code | none => 0#2) else 0#2) := by
  obtain ⟨state, start, current, park, remembered, fault, ignored, walk⟩ := x
  have hpark : (if state = .parked then (match park with | some k => k.code | none => 0) else 0) < 4 := by
    split
    · cases park with
      | none => decide
      | some k => exact k.code_lt
    · decide
  have hfault : (if state = .fault then (match fault with | some k => k.code | none => 0) else 0) < 4 := by
    split
    · cases fault with
      | none => decide
      | some k => exact k.code_lt
    · decide
  obtain ⟨h1, h2, h3, h4⟩ := chainByte_fields (ignored := if ignored then 1 else 0) state.code_lt hpark
    (by split <;> decide) hfault
  refine ⟨h1, h2.trans ?_, h3.trans (by cases ignored <;> rfl), h4.trans ?_⟩
  · split
    · cases park <;> rfl
    · rfl
  · split
    · cases fault <;> rfl
    · rfl

/-! ## Reads of 8 to 64 bits (R176) -/

theorem narrow_eq (w : BitVec 32) (k l : Nat) : BitVec.ofNat 64 (w.toNat / 256 ^ k % 256 ^ l)
    = (w.extractLsb' (8 * k) (8 * l)).setWidth 64 := by
  apply BitVec.eq_of_toNat_eq
  rw [BitVec.toNat_setWidth, BitVec.extractLsb'_toNat, BitVec.toNat_ofNat, Nat.shiftRight_eq_div_pow, Nat.pow_mul, Nat.pow_mul]

theorem State.inForce_of_osc {s : State} (h : s.osc = true) : s.inForce = s.settle.busCheck s.settle.closePeriod := if_pos h

theorem State.readWindow_none (s : State) {n : Nat} (h : n = 6 ∨ n = 7 ∨ 14 ≤ n) : s.readWindow (4 * n) = 0#32 := by
  rcases h with rfl | rfl | h
  · rfl
  · rfl
  · unfold State.readWindow
    split
    any_goals omega
    rfl

/-- Settles O59: what is in force by the periods of O13, the registers by their fields. -/
theorem registerReads : Obligations.RegisterReads := by
  refine ⟨fun s => rfl, fun s => ⟨rfl, rfl⟩, fun s hr hdone => ?_, fun s t sec hs ht hdone => ?_,
    fun s a ho hw ha => ?_, fun v hlen hepoch => ?_, fun s c => ?_, fun s n hp hl hc => ?_, fun s offset width h => ?_⟩
  · obtain ⟨-, ho, hq⟩ := id hr
    rw [State.inForce_of_osc ho, State.settle_eq (State.still_of_quiescent hq), State.closePeriod_of_done hdone,
      State.busCheck_of_same rfl rfl (fun _ => rfl) (State.writesFail_of_ready hr)]
  · rw [exec_actionInstant hs] at ht
    obtain rfl : s.takeAction = t := Host.Outcome.next.inj ht
    obtain ⟨hr, -⟩ := id hs
    obtain ⟨-, ho, hq⟩ := id hr
    obtain ⟨-, hm, hh, -⟩ := id hdone
    rw [State.inForce_of_osc ho, State.settle_eq (State.still_of_quiescent hq), State.closePeriod_of_acts hs hm hh,
      State.closePeriod_of_done hdone]
    exact State.busCheck_of_same (by simp) (by simp [Endpoint.sends]) (fun c => by cases c <;> simp [State.ctx])
      (State.writesFail_of_ready hr)
  · rw [State.inForce_of_osc ho]
    exact ((State.closePeriod_keepsNotices _).trans (State.busCheck_keepsNotices ..)).notice 11
      (State.settle_announces ho hw ha)
  · exact State.partState_fields hlen hepoch
  · obtain ⟨h1, h2, h3⟩ := s.chainReg_byte
    intro shift byte x
    have hbyte : byte = x.byte := by
      cases c with
      | control => exact h1
      | event => exact h2
      | capture => exact h3
    rw [hbyte]
    exact x.byte_fields
  · intro v word
    have hseen : (s.powered && s.ep.seen) = true := by simp [hp, Endpoint.seen, hl, hc]
    have hread (offset width : Nat) : s.hostRead offset width = v.readValue offset width := if_pos hseen
    have hword (k l : Nat) (hk : k < 4) (hl : l = 1 ∨ l = 2 ∨ l = 4) (hal : (4 * n + k) % l = 0) :
        s.hostRead (4 * n + k) l = some ((word.extractLsb' (8 * k) (8 * l)).setWidth 64) := by
      have hoff : (4 * n + k) / 4 * 4 = 4 * n ∧ (4 * n + k) % 4 = k := by omega
      refine (hread ..).trans ((if_pos ⟨hl, hal⟩).trans ?_)
      rw [hoff.1, hoff.2, narrow_eq]
    refine ⟨?_, fun k => ?_, fun k => ?_, fun c => ?_, v.readWindow_none⟩
    · have h := hword 0 4 (by omega) (by omega) (by omega)
      simpa using h
    · have h := hword (2 * k.val) 2 (by omega) (by omega) (by omega)
      rw [← Nat.mul_assoc] at h
      exact h
    · exact hword k.val 1 (by omega) (by omega) (by omega)
    · rw [hread]
      cases c <;> rfl
  · have hseen : (s.powered && s.ep.seen) = false := by
      rcases h with h | h | h <;> simp [Endpoint.seen, h]
    exact if_neg (by simp [hseen])

end Sys2Proof.Machine
end

section
/-! The CHAINS scope (O60). -/

namespace Sys2Proof.Machine

open Sys2Proof

/-! ## What the effect instant leaves (R158, R173) -/

/-- An emptied store passes no mark. -/
theorem State.setRecords_nil (s : State) :
    s.setRecords [] = ({ s with pst := { s.pst with records := [] } } : State).flowAll := by
  have hpass : (decide (s.pst.records.length < s.pst.params.high) && decide (s.pst.params.high ≤ ([] : List Record).length))
      = false := by
    simp only [List.length_nil, Bool.and_eq_false_iff, decide_eq_false_iff_not]
    omega
  rw [State.setRecords, hpass]
  rfl

/-- The scope is complete at once where no number is held. -/
theorem State.chainsEffect_of_empty {s : State} (h : s.pst.records = []) : s.chainsEffect =
    State.notify { s.chainsAtRest.flowAll with prt := { s.prt with chains := .idle } } .resetDone := by
  have hdiscard : s.chainsAtRest.discardRecords = s.chainsAtRest := by
    simp [State.discardRecords, State.chainsAtRest, h]
  have hset : s.chainsAtRest.discardRecords.setRecords [] = s.chainsAtRest.flowAll := by
    rw [hdiscard, State.setRecords_nil]
    simp [State.chainsAtRest, State.flowAll, h]
  rw [State.chainsEffect_eq, hset]
  exact if_pos (by simp [h])

/-- The numbers held are accounted for by a DISCARD, stamped after the work of the period. -/
theorem State.chainsEffect_of_held {s : State} {first last : Record} (hf : s.pst.records.head? = some first)
    (hl : s.pst.records.getLast? = some last) : s.chainsEffect =
      { (s.chainsAtRest.left.createNow (.discard first.seq last.seq)).setRecords [] with
        prt := { s.chainsAtRest.left.prt with chains := .waitDiscard } } := by
  have hdiscard : s.chainsAtRest.discardRecords = s.chainsAtRest.left.createNow (.discard first.seq last.seq) := by
    have hf' : s.chainsAtRest.pst.records.head? = some first := hf
    have hl' : s.chainsAtRest.pst.records.getLast? = some last := hl
    simp only [State.discardRecords, hf', hl']
  have hsome : ¬ s.pst.records.isEmpty = true := by
    cases hr : s.pst.records with
    | nil => simp [hr] at hf
    | cons r rs => simp
  rw [State.chainsEffect_eq, hdiscard]
  refine (if_neg hsome).trans ?_
  simp [State.setRecords_nil, State.flowAll]

theorem State.discardRecords_signals (s : State) : s.chainsAtRest.Signals s.chainsAtRest.discardRecords := by
  unfold State.discardRecords
  split
  · exact s.chainsAtRest.left_signals.trans (.of_same (by simp) (by simp) (by simp))
  · exact .refl _

/-- The lines after the effect: their FIFOs stay, and their flow states are evaluated with no record pending. -/
theorem State.chainsEffect_line (s : State) (l : Fin 4) : (s.chainsEffect.line l).fifo = (s.line l).fifo
    ∧ (s.chainsEffect.line l).hold = ((s.line l).evalFlow 0 s.pst.params.high s.pst.params.low).hold := by
  have hset (t : State) (hp : t.pst.params = s.pst.params) (hc : s.linesCounted t) :
      ((t.setRecords []).line l).fifo = (s.line l).fifo
        ∧ ((t.setRecords []).line l).hold = ((s.line l).evalFlow 0 s.pst.params.high s.pst.params.low).hold := by
    rw [State.setRecords_line, hc l, hp]
    exact ⟨rfl, rfl⟩
  have h := hset s.chainsAtRest.discardRecords (by simp [State.chainsAtRest]) s.discardRecords_signals.lines
  rw [State.chainsEffect_eq]
  split
  · exact h
  · exact h

theorem State.chainsEffect_wire (s : State) : ∃ sent : List Output,
    s.chainsEffect.wire = sent ++ s.chainsAtRest.wire ∧ ∀ o ∈ sent, o = .interrupt := by
  obtain ⟨n, hn⟩ := s.discardRecords_signals.wire
  have hset : (s.chainsAtRest.discardRecords.setRecords []).wire = List.replicate n .interrupt ++ s.chainsAtRest.wire := by
    rw [State.setRecords_nil]
    exact hn
  rw [State.chainsEffect_eq]
  split
  · obtain ⟨m, hm⟩ := (State.notify_signals { s.chainsAtRest.discardRecords.setRecords [] with
      prt := { (s.chainsAtRest.discardRecords.setRecords []).prt with chains := .idle } } .resetDone).wire
    refine ⟨List.replicate (m + n) .interrupt, ?_, fun o ho => List.eq_of_mem_replicate ho⟩
    rw [hm, List.replicate_add, List.append_assoc]
    exact congrArg _ hset
  · exact ⟨_, hset, fun o ho => List.eq_of_mem_replicate ho⟩

/-- Settles O60: the effect instant by whether PST holds a number, and when it comes. -/
theorem chainsScope : Obligations.ChainsScope := by
  intro s kept off base v effect
  have heffect : effect (State.chainsEffect { s with prt := { s.prt with chains := .waitDone } }) := by
    let u : State := { s with prt := { s.prt with chains := .waitDone } }
    have hrest : u.chainsAtRest = base := rfl
    refine ⟨fun h => ?_, fun first last hf hl => ?_, fun l => u.chainsEffect_line l, ?_⟩
    · have heq : u.chainsEffect = _ := State.chainsEffect_of_empty h
      rw [heq]
      refine ⟨rfl, State.notifyIf_notice (b := true) (c := .resetDone) rfl, ?_⟩
      exact State.notifyIf_frame _ true .resetDone
    · have heq : u.chainsEffect = _ := State.chainsEffect_of_held hf hl
      have hpst : base.pst = v.pst := by simp [v]
      rw [heq, State.setRecords_nil, hpst]
      rfl
    · obtain ⟨sent, hw, hsent⟩ := u.chainsEffect_wire
      refine ⟨sent, ?_, hsent⟩
      rw [hw, List.append_assoc]
      rfl
  have hdue (u : State) (ho : u.osc = true ∨ u.pst.records = []) (hw : u.prt.chains = .waitDone)
      (hc : u.cap.closing = none) : u.scopeDue = true := by
    rcases ho with h | h <;> simp [State.scopeDue, State.halted, hw, hc, h]
  refine ⟨fun hs hi hc => ⟨_, ?_, heffect⟩, fun hp ho hw hc ht howed => ⟨_, ?_, heffect⟩, fun hs hi hc => ?_, fun hs hi => ?_⟩
  · refine (windowed_of_served hs _).trans ?_
    rw [if_pos hi]
    exact congrArg Host.Outcome.next (if_pos (hdue
      { s with prt := { s.prt with chains := .waitDone } } (.inl hs.1.2.1) rfl hc))
  · have hself : ({ s with prt := { s.prt with chains := .waitDone } } : State) = s := by rw [← hw]
    have htick : s.tickTimers = s := by simp [State.tickTimers, State.runTimers, ht]
    have hscope : s.takeScope = s.chainsEffect := by
      rw [State.takeScope, if_pos (hdue s ho hw hc), htick, State.keep_eq howed, State.settleScope, if_pos (hdue s ho hw hc)]
    rw [hself, ← hscope]
    exact congrArg Host.Outcome.next (if_pos hp)
  · refine (windowed_of_served hs _).trans ?_
    rw [if_pos hi]
    refine congrArg Host.Outcome.next (if_neg ?_)
    cases hcl : s.cap.closing with
    | none => exact absurd hcl hc
    | some k => simp [State.scopeDue, hcl]
  · refine (windowed_of_served hs _).trans ?_
    rw [if_neg hi]

end Sys2Proof.Machine
end

section
/-! SET_SEQUENCE (O38). -/

namespace Sys2Proof.Machine

open Sys2Proof

/-! ## A new run (R84, R85) -/

theorem Line.quiet_iff (l : Line) : l.quiet = true ↔ l.opened = false ∧ l.fifo = [] ∧ l.frame = none := by
  simp [Line.quiet, and_assoc]

theorem State.quiet_iff (s : State) : s.quiet = true ↔ (∀ l : Fin 4, (s.line l).opened = false ∧ (s.line l).fifo = []
      ∧ (s.line l).frame = none) ∧ s.evt.fifo = [] ∧ s.evt.ctx.state ≠ .active ∧ s.pst.records = []
      ∧ s.sqm.agenda = [] := by
  have hlines : s.lines.allB Line.quiet = true ↔ ∀ l : Fin 4, (s.line l).quiet = true := Quad.allB_iff ..
  simp only [State.quiet, Bool.and_eq_true, hlines, Line.quiet_iff, List.isEmpty_iff, bne_iff_ne, and_assoc]

/-- The RUN record's entry in an empty agenda. -/
def State.runEntry (s : State) (run next : Nat) : Internal :=
  { stamp := s.left.now, cls := s.left.du.cls, group := 255, late := false, steppedOver := false,
    coalesced := false, count := 1, order := s.sqm.created, body := .run run next }

theorem State.createLeft_run {s : State} (h : s.sqm.agenda = []) (run next : Nat) :
    s.createLeft (.run run next) = { s with
      sqm := { s.sqm with agenda := [s.runEntry run next], created := s.sqm.created + 1 } } := by
  rw [State.createLeft, State.create, h]
  rfl

/-- A RUN record alone in the agenda is released with its own body. -/
theorem State.releaseHead_run {u : State} {e : Internal} {run next : Nat} (h : u.sqm.agenda = [e]) (hg : 64 ≤ e.group)
    (hb : e.body = .run run next) : u.releaseHead .internal = ({ u with
      sqm := { u.useNumber.sqm with agenda := [], tie := u.sqm.tie } } : State).setRecords
        (u.pst.records ++ [e.record u.sqm.next .none e.body]) := by
  simp only [State.releaseHead, h, State.releaseInternal, State.internalBody, hb, groupOf_none hg, State.phaseTag,
    State.completeScopes, Body.isDiscard, Body.isReset, Bool.false_and, Bool.false_eq_true, if_false, State.append]
  rfl

theorem State.newRun_released {s : State} (h : s.sqm.agenda = []) (next run : Nat) :
    (s.createLeft (.run run next)).releaseHead .internal = State.setRecords { s with
      sqm := { s.sqm.useNumber with agenda := [], created := s.sqm.created + 1 } }
        (s.pst.records ++ [(s.runEntry run next).record s.sqm.next .none (.run run next)]) := by
  rw [State.createLeft_run h, State.releaseHead_run (e := s.runEntry run next) (by rfl) (show 64 ≤ 255 by decide) rfl]
  congr 1
  simp only [State.useNumber, SQM.useNumber]
  split <;> rfl

/-- Settles O38: SQM's tests in order, and the release of the RUN record by itself. -/
theorem setSequence : Obligations.SetSequence := by
  intro s off h next run hs quiet base
  refine ⟨fun h0 => ?_, fun h0 hq => ?_, fun h0 hq => ?_⟩
  · exact takeControl_refused hs 16 _ .range (if_pos h0)
  · have hq' : s.quiet = false := Bool.eq_false_iff.2 fun h => hq (s.quiet_iff.1 h)
    exact takeControl_refused hs 16 _ .state ((if_neg h0).trans (if_pos (by simp [hq'])))
  · obtain ⟨-, -, -, hrec, hag⟩ := id hq
    have hq' : s.quiet = true := s.quiet_iff.2 hq
    let r : Record := (base.runEntry run.toNat next.toNat).record next.toNat .none (.run run.toNat next.toNat)
    let u : State := { base with sqm := { base.sqm.useNumber with agenda := [], created := s.sqm.created + 1 } }
    have ht : (base.createLeft (.run run.toNat next.toNat)).releaseHead .internal = u.setRecords [r] := by
      refine (State.newRun_released (s := base) hag next.toNat run.toNat).trans ?_
      rw [show base.pst.records = [] from hrec]
      rfl
    have hframe := u.setRecords_frame [r]
    have hnew : s.newRun next.toNat run.toNat = (u.setRecords [r]).left := congrArg State.left ht
    have hans : s.AnswersAs (u.setRecords [r]) := ⟨by simp [u, base], (u.setRecords_port [r]).1,
      (u.setRecords_port [r]).2.1, (u.setRecords_port [r]).2.2⟩
    have hsqm : (u.setRecords [r]).sqm = { s.sqm with
        next := if next.toNat < 18446744073709551615 then next.toNat + 1 else next.toNat
        first := next.toNat, run := run.toNat, agenda := [], created := s.sqm.created + 1
        exhausted := decide (next.toNat = 18446744073709551615) } := by
      have hlt := next.isLt
      have hkeep : (u.setRecords [r]).sqm = u.sqm := by simp
      rw [hkeep]
      by_cases hmax : next.toNat < 18446744073709551615
      · simp only [u, base, SQM.useNumber, Config.seqMax, if_neg (Nat.not_le.2 hmax), if_pos hmax,
          decide_eq_false (Nat.ne_of_lt hmax)]
      · have heq : next.toNat = 18446744073709551615 := by omega
        simp only [u, base, SQM.useNumber, Config.seqMax, if_pos (Nat.not_lt.1 hmax), if_neg hmax, decide_eq_true heq]
    refine ⟨u.setRecords [r], takeControl_of_answer hs ?_ (hans.trans (State.left_answersAs _)), ⟨r, ?_, rfl, rfl, rfl, rfl, rfl, rfl⟩,
      hsqm, ?_, ?_⟩
    · refine (if_neg h0).trans ((if_neg (by simp [hq'])).trans ?_)
      rw [hnew]
      rfl
    · simp [u, base]
    · simp [u, base]
    · rw [hframe]

end Sys2Proof.Machine
end

section
/-! The LINES and AUCTIONS scopes (O45). -/

namespace Sys2Proof.Machine

open Sys2Proof

/-! ## LINES (R71, R128) -/

theorem Line.reset_eq (l : Line) (fill high low : Nat) : l.reset fill high low = { Line.powerOn with
    urgentA := l.urgentA, urgentB := l.urgentB
    hold := if l.hold then decide (low < fill) else decide (high ≤ fill) } := by
  have hhold : ({ l with fifo := [] } : Line).nextHold fill high low
      = if l.hold then decide (low < fill) else decide (high ≤ fill) := by
    simp only [Line.nextHold, List.length_nil]
    cases l.hold
    · simp [Config.fifoHold]
    · rw [Bool.eq_iff_iff]
      simp [Config.fifoGo]
  rw [Line.reset, hhold]

theorem State.notifyLinks_notice (s : State) {old : Quad Line} (h : ∃ l : Fin 4, (old.get l).up = true) :
    (s.notifyLinks old).prt.notice.getLsbD 13 = true := by
  have hkeep (t : State) (b : Bool) : t.KeepsNotices (t.notifyIf b .lineChange) := (t.notifyIf_signals b _).keepsNotices
  have hset {t : State} {b : Bool} (hb : b = true) : (t.notifyIf b .lineChange).prt.notice.getLsbD 13 = true :=
    State.notifyIf_notice (c := .lineChange) hb
  obtain ⟨l, hl⟩ := h
  unfold State.notifyLinks
  match l, hl with
  | 0, hl => exact ((hkeep _ _).trans ((hkeep _ _).trans (hkeep _ _))).notice 13 (hset hl)
  | 1, hl => exact ((hkeep _ _).trans (hkeep _ _)).notice 13 (hset hl)
  | 2, hl => exact (hkeep _ _).notice 13 (hset hl)
  | 3, hl => exact hset hl

theorem State.notifyLinks_frame (s : State) (old : Quad Line) : s.notifyLinks old = { s with
    prt := (s.notifyLinks old).prt, ep := (s.notifyLinks old).ep, wire := (s.notifyLinks old).wire } := by
  unfold State.notifyLinks
  exact (State.notifyIf_frame _ old.l3.up .lineChange).trans (by simp)

/-! ## AUCTIONS (R121) -/

/-- ATU stands at its power-on values, and no group's and no alarm's record waits. -/
structure State.WithoutAuctions (s : State) : Prop where
  atu : s.atu = ATU.powerOn
  agenda : ∀ e ∈ s.sqm.agenda, e.body.isGroup = false ∧ ∀ i n, e.body ≠ .alarm i n

theorem State.WithoutAuctions.of_same {s t : State} (h : s.WithoutAuctions) (ha : t.atu = s.atu)
    (hq : t.sqm = s.sqm) : t.WithoutAuctions :=
  ⟨ha.trans h.atu, by rw [hq]; exact h.agenda⟩

theorem Body.merge_isGroup (w a : Body) : (w.merge a).isGroup = w.isGroup := by
  unfold Body.merge
  split <;> rfl

theorem Body.merge_ne_alarm {w : Body} (h : ∀ i n, w ≠ .alarm i n) (a : Body) (i n : Nat) : w.merge a ≠ .alarm i n := by
  unfold Body.merge
  split
  · nofun
  · nofun
  · exact absurd rfl (h _ _)
  · nofun
  · exact h i n

theorem State.WithoutAuctions.create {s : State} (h : s.WithoutAuctions) (stamp : Stamp) (cls : TraceClass) (n : Nat)
    (a b : Bool) {body : Body} (hg : body.isGroup = false) (ha : ∀ i n, body ≠ .alarm i n) :
    (s.create stamp cls n a b body).WithoutAuctions := by
  refine ⟨h.atu, fun e he => ?_⟩
  rw [State.create_sqm] at he
  rcases arrive_cases _ s.sqm.agenda with ⟨-, harr⟩ | ⟨-, harr⟩
  · rw [harr, mem_insertAgenda] at he
    rcases he with rfl | he
    · exact ⟨hg, ha⟩
    · exact h.agenda e he
  · rw [harr, List.mem_map] at he
    obtain ⟨w, hw, rfl⟩ := he
    obtain ⟨hwg, hwa⟩ := h.agenda w hw
    split
    · exact ⟨(Body.merge_isGroup ..).trans hwg, Body.merge_ne_alarm hwa _⟩
    · exact ⟨hwg, hwa⟩

theorem foldl_of_fixed {α β : Type} {f : α → β → α} {a : α} (h : ∀ b, f a b = a) (l : List β) : l.foldl f a = a := by
  induction l with
  | nil => rfl
  | cons b l ih => rw [List.foldl_cons, h, ih]

section
variable {s : State} (h : s.WithoutAuctions)
include h

theorem State.WithoutAuctions.stateChanged (old : DState) (sec : Second) : (s.stateChanged old sec).WithoutAuctions := by
  unfold State.stateChanged
  split
  · exact (h.create _ _ 255 false false rfl (by nofun)).of_same rfl rfl
  · exact h

theorem State.WithoutAuctions.holdDemand (newly : Bool) (sec : Second) : (s.holdDemand newly sec).WithoutAuctions := by
  unfold State.holdDemand
  split
  · have hheld : (s.notify .stepHeld).handHeld.WithoutAuctions := h.of_same rfl rfl
    exact (hheld.create _ _ 255 false false rfl (by nofun)).of_same rfl rfl
  · exact h

theorem State.WithoutAuctions.classChanged (old : TraceClass) (now : Stamp) (cls : TraceClass) :
    (s.classChanged old now cls).WithoutAuctions := by
  unfold State.classChanged
  split
  · exact (h.create _ _ 255 false false rfl (by nofun)).of_same rfl rfl
  · exact h

theorem State.WithoutAuctions.adoptOffset (sec : Second) : (s.adoptOffset sec).WithoutAuctions := by
  unfold State.adoptOffset
  split
  · exact (h.create _ _ 255 false false rfl (by nofun)).of_same rfl rfl
  · exact h

theorem State.WithoutAuctions.handSecond (servo : Bool) (sec : Second) : (s.handSecond servo sec).WithoutAuctions :=
  h.of_same (by simp) (by simp)

theorem State.WithoutAuctions.settleAdvance (v : State) : (s.settleAdvance v).WithoutAuctions := by
  have hj : s.settleJudge.WithoutAuctions := h.of_same (by simp) (by simp)
  unfold State.settleAdvance
  dsimp only
  split
  · exact (hj.create _ _ 255 false false rfl (by nofun)).of_same rfl rfl
  · exact hj

/-- Groups and alarms at their power-on values have no timer to pass over. -/
theorem State.WithoutAuctions.group (g : Fin 64) : s.group g = Group.powerOn := by
  rw [State.group, h.atu]
  exact Vector.getElem_replicate ..

theorem State.WithoutAuctions.alarm (a : Fin 8) : s.alarm a = none := by
  rw [State.alarm, h.atu]
  exact Vector.getElem_replicate ..

theorem State.WithoutAuctions.passTimers (pre post : Instant) : s.passTimers pre post = s := by
  have hgroup (g : Fin 64) : s.passGroup pre post g = s := by
    simp [State.passGroup, h.group g, Group.powerOn, passed]
  have halarm (a : Fin 8) : s.passAlarm pre post a = s := by simp [State.passAlarm, h.alarm a]
  rw [State.passTimers, foldl_of_fixed hgroup, foldl_of_fixed halarm]

theorem State.WithoutAuctions.afterMove (pre post : Instant) (d : Int) : (s.afterMove pre post d).WithoutAuctions := by
  have hmove : (s.moveEvidence post).WithoutAuctions := h.of_same rfl rfl
  unfold State.afterMove
  dsimp only
  split
  · rw [hmove.passTimers]
    exact hmove
  · exact hmove

theorem State.WithoutAuctions.abandonRunning (pre : Stamp) (cls : TraceClass) : s.abandonRunning pre cls = s :=
  foldl_of_fixed (fun g => by simp [State.abandonGroup, h.group g, Group.powerOn, Group.running]) _

theorem State.WithoutAuctions.recordMove (pre : Stamp) (cls : TraceClass) (theta : Int) (marker : Option Stamp)
    (body : ClockBody) : (s.recordMove pre cls theta marker body).WithoutAuctions :=
  h.create _ _ 255 false false rfl (by nofun)

theorem State.WithoutAuctions.placeCounter (post : Instant) (frac epoch : Nat) :
    (s.placeCounter post frac epoch).WithoutAuctions := h.of_same rfl rfl

theorem State.WithoutAuctions.applyStep (cls : TraceClass) (sec : Second) : (s.applyStep cls sec).WithoutAuctions :=
  ((h.placeCounter ..).recordMove ..).afterMove ..

theorem State.WithoutAuctions.applySet (cls : TraceClass) (sec : Second) : (s.applySet cls sec).WithoutAuctions := by
  unfold State.applySet
  dsimp only
  rw [h.abandonRunning]
  split
  · exact (h.recordMove ..).of_same rfl rfl
  · exact ((h.placeCounter ..).recordMove ..).afterMove ..

theorem State.WithoutAuctions.moveTime (cls : TraceClass) (sec : Second) (mv : Move) :
    (s.moveTime cls sec mv).WithoutAuctions := by
  have hd (d : Option Demand) : State.WithoutAuctions { s with tb := { s.tb with demand := d } } := h.of_same rfl rfl
  cases mv with
  | keep => exact h
  | withdraw => exact hd _
  | hold => exact hd _
  | step => exact (hd none).applyStep ..
  | set => exact (hd none).applySet ..

theorem State.WithoutAuctions.workOf (sec : Second) : (s.workOf sec).WithoutAuctions := by
  have h0 : (State.setInc { s with du := s.duAfter sec (s.moveOf sec) }).WithoutAuctions := h.of_same rfl rfl
  exact (((((h0.moveTime ..).stateChanged ..).holdDemand ..).classChanged ..).adoptOffset ..).handSecond ..

theorem State.WithoutAuctions.actOn (sec : Second) : (s.actOn sec).WithoutAuctions := by
  unfold State.actOn
  dsimp only
  split
  · exact (h.settleAdvance _).workOf sec
  · exact h.workOf sec

theorem State.WithoutAuctions.takeAction : s.takeAction.WithoutAuctions := by
  unfold State.takeAction
  split
  · next sec rest _ =>
    have hj : State.WithoutAuctions { s with du := { s.du with judged := rest } } := h.of_same rfl rfl
    exact (hj.actOn sec).of_same rfl rfl
  · exact h

theorem State.WithoutAuctions.closeActions : s.closeActions.WithoutAuctions := by
  have hstep (t : State) (ht : t.WithoutAuctions) : (if t.actionDue then t.takeAction else t).WithoutAuctions := by
    split
    · exact ht.takeAction
    · exact ht
  have htimes (n : Nat) (t : State) (ht : t.WithoutAuctions) :
      (times (fun t : State => if t.actionDue then t.takeAction else t) n t).WithoutAuctions := by
    induction n generalizing t with
    | zero => exact ht
    | succ n ih => exact ih _ (hstep t ht)
  exact htimes _ s h

theorem State.WithoutAuctions.acted : s.acted.WithoutAuctions := by
  unfold State.acted
  split
  · exact h.closeActions.of_same rfl rfl
  · exact h.of_same rfl rfl

theorem State.WithoutAuctions.missingSecond : s.missingSecond.WithoutAuctions := by
  have hd (du : DU) (sec : Second) : (State.actOn { s with du := du } sec).reading.WithoutAuctions :=
    have h0 : State.WithoutAuctions { s with du := du } := h.of_same rfl rfl
    (h0.actOn sec).of_same rfl rfl
  exact hd _ _

theorem State.WithoutAuctions.holdoverSecond : s.holdoverSecond.WithoutAuctions := by
  have hd (du : DU) (old cls : TraceClass) (now : Stamp) :
      (State.classChanged { s with du := du } old now cls).handOver.WithoutAuctions :=
    have h0 : State.WithoutAuctions { s with du := du } := h.of_same rfl rfl
    (h0.classChanged ..).of_same rfl rfl
  unfold State.holdoverSecond
  dsimp only
  split
  · exact hd _ _ _ _
  · exact (hd _ _ _ _).acted

theorem State.WithoutAuctions.work : s.work.WithoutAuctions := by
  have hm (t : State) (ht : t.WithoutAuctions) : (if t.missingDue then t.missingSecond else t).WithoutAuctions := by
    split
    · exact ht.missingSecond
    · exact ht
  have hh (t : State) (ht : t.WithoutAuctions) : (if t.holdoverDue then t.holdoverSecond else t).WithoutAuctions := by
    split
    · exact ht.holdoverSecond
    · exact ht
  exact hh _ (hm _ h.closeActions)

theorem State.WithoutAuctions.left : s.left.WithoutAuctions := by
  unfold State.left State.done
  split
  · exact h.work.of_same rfl rfl
  · exact h.of_same rfl rfl

end

/-! ### The ABANDON records of the scope -/

theorem abandonBody_isGroup (x : Group) (cause : AbandonCause) (epoch : Nat) :
    (x.abandonBody cause epoch).isGroup = true := rfl

/-- The ABANDON record that the scope creates for a group, apart from its place in the agenda. -/
def State.abandonEntry (s : State) (old : ATU) (g : Fin 64) (order : Nat) : Internal :=
  { stamp := s.now, cls := s.du.cls, group := g.val, late := false, steppedOver := false, coalesced := false,
    count := 1, order := order, body := (old.groups.get g).abandonBody .reset s.tb.epoch }

theorem State.resetAbandon_frame (old : ATU) (s : State) (g : Fin 64) :
    s.resetAbandon old g = { s with sqm := (s.resetAbandon old g).sqm } := by
  unfold State.resetAbandon
  dsimp only
  split <;> rfl

theorem State.foldResetAbandon_frame (old : ATU) (l : List (Fin 64)) (s : State) :
    l.foldl (State.resetAbandon old) s = { s with sqm := (l.foldl (State.resetAbandon old) s).sqm } := by
  induction l generalizing s with
  | nil => rfl
  | cons g l ih =>
    rw [List.foldl_cons, ih]
    simp

theorem State.abandonEntry_of_reset (old : ATU) (s : State) (k : Fin 64) :
    (s.resetAbandon old k).abandonEntry old = s.abandonEntry old := by
  rw [State.resetAbandon_frame]
  rfl

theorem State.mem_resetAbandon {old : ATU} {s : State} {g : Fin 64} {e : Internal} :
    e ∈ (s.resetAbandon old g).sqm.agenda ↔
      e ∈ s.sqm.agenda ∨ ((old.groups.get g).running = true ∧ e = s.abandonEntry old g s.sqm.created) := by
  unfold State.resetAbandon
  dsimp only
  split
  · next hr =>
    rw [State.mem_create_of_isGroup _ _ _ _ _ _ (abandonBody_isGroup _ _ _)]
    simp only [hr, true_and, State.abandonEntry]
    exact or_comm
  · next hr => simp [hr]

/-- The agenda of the scope's records: those that waited, and one of each group that ran. -/
theorem State.mem_foldResetAbandon {old : ATU} {l : List (Fin 64)} {s : State} {e : Internal}
    (he : e ∈ (l.foldl (State.resetAbandon old) s).sqm.agenda) : e ∈ s.sqm.agenda
      ∨ ∃ g ∈ l, (old.groups.get g).running = true ∧ ∃ n, e = s.abandonEntry old g n := by
  induction l generalizing s with
  | nil => exact .inl he
  | cons k l ih =>
    rcases ih he with hold | ⟨g, hg, hr, n, rfl⟩
    · rcases State.mem_resetAbandon.1 hold with hold | ⟨hr, rfl⟩
      · exact .inl hold
      · exact .inr ⟨k, List.mem_cons_self, hr, _, rfl⟩
    · exact .inr ⟨g, List.mem_cons_of_mem _ hg, hr, n, by rw [State.abandonEntry_of_reset]⟩

theorem State.foldResetAbandon_keeps_mem {old : ATU} (l : List (Fin 64)) {s : State} {e : Internal}
    (he : e ∈ s.sqm.agenda) : e ∈ (l.foldl (State.resetAbandon old) s).sqm.agenda := by
  induction l generalizing s with
  | nil => exact he
  | cons k l ih => exact ih (State.mem_resetAbandon.2 (.inl he))

theorem State.foldResetAbandon_creates {old : ATU} {l : List (Fin 64)} {s : State} {g : Fin 64} (hg : g ∈ l)
    (hr : (old.groups.get g).running = true) :
    ∃ n, s.abandonEntry old g n ∈ (l.foldl (State.resetAbandon old) s).sqm.agenda := by
  induction l generalizing s with
  | nil => nomatch hg
  | cons k l ih =>
    rcases List.mem_cons.1 hg with rfl | hg
    · exact ⟨_, State.foldResetAbandon_keeps_mem l (State.mem_resetAbandon.2 (.inr ⟨hr, rfl⟩))⟩
    · obtain ⟨n, hn⟩ := ih (s := s.resetAbandon old k) hg
      rw [State.abandonEntry_of_reset] at hn
      exact ⟨n, hn⟩

theorem Group.running_iff (x : Group) : x.running = true ↔ x.phase = .call ∨ x.phase = .closing := by
  simp [Group.running]

theorem State.someRunning_iff (s : State) : s.someRunning = true ↔ ∃ g, (s.group g).running = true := by
  simp [State.someRunning, allGroups]

/-- Settles O45: LINES line by line; AUCTIONS by whether a group runs, its records by the groups that did. -/
theorem linesAndAuctionsScopes : Obligations.LinesAndAuctionsScopes := by
  refine ⟨fun s hs => ?_, fun s hs => ?_⟩
  · let w : State := { s with
      lines := s.lines.map fun l => l.reset s.pst.records.length s.pst.params.high s.pst.params.low
      att := { s.att with carried := Quad.zip (fun c (l : Line) => c.plus l.counters) s.att.carried s.lines } }
    have hlinks := w.notifyLinks_frame s.lines
    have hframe : s.resetLines.notify .resetDone = { w with
        prt := (s.resetLines.notify .resetDone).prt, ep := (s.resetLines.notify .resetDone).ep
        wire := (s.resetLines.notify .resetDone).wire } := by
      refine (State.notifyIf_frame (w.notifyLinks s.lines) true .resetDone).trans ?_
      rw [hlinks]
      rfl
    refine ⟨s.resetLines.notify .resetDone, windowed_of_served hs _, fun l => ⟨?_, ?_⟩, ?_, fun hup => ?_, ?_, ?_⟩
    · have hl : (s.resetLines.notify .resetDone).lines = w.lines := (congrArg State.lines hframe).trans rfl
      rw [State.line, hl, ← Line.reset_eq]
      exact Quad.get_map _ _ _
    · have ha : (s.resetLines.notify .resetDone).att = w.att := (congrArg State.att hframe).trans rfl
      rw [ha]
      exact Quad.get_zip ..
    · exact State.notifyIf_notice (b := true) (c := .resetDone) rfl
    · exact (State.notify_signals _ _).notice 13 (State.notifyLinks_notice _ hup)
    · rw [show (s.resetLines.notify .resetDone).att = w.att from (congrArg State.att hframe).trans rfl]
    · rw [hframe]
  · intro base v running
    have hrunning (g : Fin 64) : (s.group g).running = true ↔ running g := Group.running_iff _
    have hbase : s.resetAuctions = base := rfl
    refine ⟨fun hi => ?_, fun hi hnone => ?_, fun hi hsome => ?_⟩
    · exact (windowed_of_served hs _).trans (congrArg _ (if_neg hi))
    · have hn : ¬ s.someRunning = true := fun h => by
        obtain ⟨g, hg⟩ := s.someRunning_iff.1 h
        exact hnone g ((hrunning g).1 hg)
      have hidle : ({ base with prt := { s.prt with auctions := .idle } } : State) = base := by rw [← hi]
      refine (windowed_of_served hs _).trans (congrArg _ ((if_pos hi).trans ?_))
      rw [← hidle]
      exact if_pos (by simp [hn])
    · have hr : s.someRunning = true := by
        obtain ⟨g, hg⟩ := hsome
        exact s.someRunning_iff.2 ⟨g, (hrunning g).2 hg⟩
      have hbase : base.WithoutAuctions := by
        refine ⟨rfl, fun e he => ?_⟩
        have hkept := (List.mem_filter.1 he).2
        simp only [Bool.not_eq_true', Bool.or_eq_false_iff] at hkept
        obtain ⟨hg, ha⟩ := hkept
        exact ⟨hg, fun i n hb => by simp [hb] at ha⟩
      have hwithout : v.WithoutAuctions := hbase.left
      have heffect : s.auctionsEffect = { s.resetAbandons with
          prt := { s.resetAbandons.prt with auctions := .waitAbandon } } := by
        rw [State.auctionsEffect, if_neg (by simp [hr]), if_pos hs.1.2.1]
      have hframe : s.resetAbandons = { v with sqm := s.resetAbandons.sqm } :=
        State.foldResetAbandon_frame s.atu allGroups v
      have hmem {e : Internal} (he : e ∈ s.resetAbandons.sqm.agenda) : e ∈ v.sqm.agenda
          ∨ ∃ g ∈ allGroups, (s.group g).running = true ∧ ∃ n, e = v.abandonEntry s.atu g n :=
        State.mem_foldResetAbandon he
      refine ⟨_, (windowed_of_served hs _).trans (congrArg _ ((if_pos hi).trans heffect)), ?_, fun e he hg => ?_,
        fun g hg => ?_, fun e he => ?_, fun e he => ?_, fun e he => ?_, ?_⟩
      · exact (congrArg State.atu hframe).trans hwithout.atu
      · rcases hmem he with hold | ⟨g, -, hr, n, rfl⟩
        · rw [(hwithout.agenda e hold).1] at hg
          nomatch hg
        · exact ⟨g, (hrunning g).1 hr, rfl, rfl, rfl⟩
      · obtain ⟨n, hn⟩ := State.foldResetAbandon_creates (s := v) (List.mem_finRange g) ((hrunning g).2 hg)
        exact ⟨_, hn, rfl, rfl, rfl, rfl⟩
      · rcases hmem he with hold | ⟨g, -, -, n, rfl⟩
        · exact (hwithout.agenda e hold).2
        · nofun
      · rcases hmem he with hold | ⟨g, -, -, n, rfl⟩
        · exact .inr hold
        · exact .inl rfl
      · exact State.foldResetAbandon_keeps_mem _ he
      · rw [hframe]

end Sys2Proof.Machine
end

section
/-! The release of a line's head and of a STAMP (O32, O33). -/

namespace Sys2Proof.Machine

open Sys2Proof

/-! ## A release whose head reads no time (R78) -/

/-- What RELEASE of the head of `src` leaves, where that head reads no time. -/
def State.released (s : State) (src : Source) : State := { s.atInstant.releaseHead src with tb := s.tb, du := s.du }

theorem exec_release_plain {s : State} {src : Source} (h : s.releases src) (hread : s.headReads src = false) :
    exec .release s = .next (s.busCheck (s.released src)) := by
  obtain ⟨-, -, -, -, hrel⟩ := id h
  have hnext : s.atInstant.nextRelease = some src := State.nextRelease_eq hrel
  refine (execRelease_of_releases h).trans ?_
  simp only [State.release, hnext, State.releaseFrom, State.releaseReading, hread, Bool.false_eq_true, if_false,
    State.releaseUnder]
  rfl

/-- What no release changes. -/
theorem State.released_frame (s : State) (src : Source) : s.released src = { s with
    pst := (s.released src).pst, lines := (s.released src).lines, sqm := (s.released src).sqm,
    atu := (s.released src).atu, att := (s.released src).att, evt := (s.released src).evt,
    prt := (s.released src).prt, ep := (s.released src).ep, wire := (s.released src).wire,
    posted := (s.released src).posted } := by
  have h := s.atInstant.releaseHead_same src
  simp only [State.atInstant_same] at h
  unfold State.released
  generalize s.atInstant.releaseHead src = t at h
  obtain ⟨h1, h2, h3, h4, -, -, h5, h6, h7, h8⟩ := h
  cases t
  subst h1 h2 h3 h4 h5 h6 h7 h8
  rfl

/-! ## A line's head -/

section
variable {s : State} {l : Fin 4} {e : FifoEntry} {rest : List FifoEntry} (hfifo : (s.line l).fifo = e :: rest)
include hfifo

theorem State.released_line_eq : s.released (.line l) =
    { s.atInstant.releaseLine l e rest with tb := s.tb, du := s.du } := by
  have h : (s.atInstant.line l).fifo = e :: rest := hfifo
  simp only [State.released, State.releaseHead, h]

end

theorem State.releaseLine_pst (s : State) (l : Fin 4) (e : FifoEntry) (rest : List FifoEntry) :
    (s.releaseLine l e rest).pst = { s.pst with
      records := s.pst.records ++ [e.record l s.sqm.next (s.tagOf e.group)] } := by
  have htag : s.useNumber.tagOf e.group = s.tagOf e.group := rfl
  simp [State.releaseLine, State.phaseTag_tag, htag]

theorem State.releaseLine_sqm (s : State) (l : Fin 4) (e : FifoEntry) (rest : List FifoEntry) :
    (s.releaseLine l e rest).sqm = s.numberTaken (s.tieAfter (.line l) e.stamp) := by
  simp only [State.releaseLine, State.setLine_same, State.append_sqm, State.phaseTag_same, State.useNumber]
  exact SQM.useNumber_tie ..

theorem State.releaseLine_line (s : State) (l : Fin 4) (e : FifoEntry) (rest : List FifoEntry) :
    ((s.releaseLine l e rest).line l).fifo = rest
      ∧ ((s.releaseLine l e rest).line l).acks = (s.line l).acks ++ [.ack e.tag s.sqm.next e.stamp] := by
  have h (t : State) (ht : t.lines = s.lines) : t.line l = s.line l := by simp [State.line, ht]
  simp [State.releaseLine, Line.respond, State.append_line, Line.evalFlow, h, State.useNumber]

theorem State.releaseLine_callCounted (s : State) (l : Fin 4) (e : FifoEntry) (rest : List FifoEntry) :
    s.callCounted (s.releaseLine l e rest) e.group := by
  have h : (s.releaseLine l e rest).atu = (s.useNumber.phaseTag e.group).1.atu := by simp [State.releaseLine]
  have hc := s.useNumber.phaseTag_callCounted e.group
  simp only [State.callCounted, State.group, h] at hc ⊢
  exact hc

theorem State.releaseLine_keepsRest (s : State) (l : Fin 4) (e : FifoEntry) (rest : List FifoEntry) :
    (s.releaseLine l e rest).att = s.att ∧ (s.releaseLine l e rest).evt = s.evt
      ∧ (s.releaseLine l e rest).posted = s.posted ∧ s.sameBus (s.releaseLine l e rest) := by
  simp [State.releaseLine, State.useNumber, State.sameBus, State.append, State.setRecords_port]

/-! ## Work that comes before a release (R75) -/

/-- From `s` to `t` no timer becomes due. -/
structure State.KeepsTimers (s t : State) : Prop where
  timers : s.timersDue = false → t.timersDue = false

theorem State.KeepsTimers.refl (s : State) : s.KeepsTimers s := ⟨id⟩

theorem State.KeepsTimers.trans {s t u : State} (h : s.KeepsTimers t) (k : t.KeepsTimers u) : s.KeepsTimers u :=
  ⟨k.timers ∘ h.timers⟩

theorem State.KeepsTimers.of_same {s t : State} (hp : t.clock.prev = s.clock.prev) (hi : t.instant = s.instant)
    (ha : t.atu = s.atu) : s.KeepsTimers t :=
  ⟨fun h => (State.timersDue_of_same hp hi ha).trans h⟩

theorem State.KeepsTimers.ite {s t : State} {c : Bool} (h : s.KeepsTimers t) :
    s.KeepsTimers (if c then t else s) := by
  split
  · exact h
  · exact .refl s

theorem State.takeAction_keepsTimers (s : State) : s.KeepsTimers s.takeAction := by
  cases hj : s.du.judged with
  | nil => simpa only [State.takeAction, hj] using State.KeepsTimers.refl s
  | cons sec rest => exact ⟨(State.takeAction_awaits hj).2⟩

theorem times_keepsTimers {f : State → State} (h : ∀ s : State, s.KeepsTimers (f s)) (n : Nat) (s : State) :
    s.KeepsTimers (times f n s) := by
  induction n generalizing s with
  | zero => exact .refl s
  | succ n ih => exact (h s).trans (ih _)

theorem State.closeActions_keepsTimers (s : State) : s.KeepsTimers s.closeActions :=
  times_keepsTimers (f := fun t => if t.actionDue then t.takeAction else t) (fun t => .ite t.takeAction_keepsTimers) _ s

theorem State.missingSecond_keepsTimers (s : State) : s.KeepsTimers s.missingSecond := by
  refine State.KeepsTimers.trans (t := State.actOn { s with du := _ } _) ⟨fun h => ?_⟩ (.of_same rfl rfl rfl)
  exact (State.actOn_awaitsAs _ _).timers ((State.timersDue_of_same rfl rfl rfl).trans h)

theorem State.acted_keepsTimers (s : State) : s.KeepsTimers s.acted := by
  exact (State.KeepsTimers.ite (c := s.actionDue) s.closeActions_keepsTimers).trans (.of_same rfl rfl rfl)

theorem State.holdoverSecond_keepsTimers (s : State) : s.KeepsTimers s.holdoverSecond := by
  have hrecord (t : State) (old : TraceClass) (now : Stamp) (cls : TraceClass) :
      t.KeepsTimers (t.classChanged old now cls).handOver :=
    .of_same (by simp) (by simp [State.instant]) (by simp)
  have hcount (du : DU) : s.KeepsTimers { s with du := du } := .of_same rfl rfl rfl
  unfold State.holdoverSecond
  dsimp only
  split
  · exact (hcount _).trans (hrecord ..)
  · exact ((hcount _).trans (hrecord ..)).trans (State.acted_keepsTimers _)

theorem State.work_keepsTimers (s : State) : s.KeepsTimers s.work := by
  exact (s.closeActions_keepsTimers.trans (.ite (State.missingSecond_keepsTimers _))).trans
    (.ite (State.holdoverSecond_keepsTimers _))

theorem State.done_keepsTimers (s : State) : s.KeepsTimers s.done := .ite s.work_keepsTimers

/-- The work of a period leaves a part with nothing else left to do. -/
theorem State.done_ready {s : State} (hr : s.ready) (hdue : s.done.workDue = false) : s.done.ready := by
  obtain ⟨hp, ho, hq⟩ := hr
  have hstill := State.still_of_quiescent hq
  simp only [State.still, Bool.and_eq_true, Bool.not_eq_true'] at hstill
  have hsends : s.done.ep.sends = s.ep.sends := by simp [Endpoint.sends]
  have hset : s.done.settled = true :=
    State.settled_of_same hstill.1 (by simp) (by simp) (by simp) (by simp) (by simp) (by simp) (by simp) (by simp) hsends
      fun _ => s.done_keepsTimers.timers
  have hplain : s.done.plainDue = false := by
    rw [← hstill.2]
    simp [State.plainDue, hsends]
  refine ⟨by rw [← hp]; simp [State.powered], by rw [← ho]; simp, ?_⟩
  simp [State.quiescent, State.still, hset, hplain, State.owed_eq_false hdue]

theorem State.releaseNext_of_done {s : State} (hb : s.boundaryDue = false) (hw : s.workDue = false) :
    s.releaseNext = s.release := by
  simp [State.releaseNext, State.settleBoundary, State.boundaryFirst, State.settleWork, State.workFirst, hb, hw]

/-- Work that comes first is done, and then the head is released. -/
theorem exec_release_workFirst {s : State} (hr : s.ready) (hb : s.boundaryDue = false) (hw : s.workFirst = true)
    (hdue : s.done.workDue = false) (hbd : s.done.boundaryDue = false) : exec .release s = exec .release s.done := by
  have hnext : s.releaseNext = s.done.release := by
    simp only [State.releaseNext, State.settleBoundary, State.boundaryFirst, hb, Bool.false_and, Bool.false_eq_true,
      if_false, State.settleWork, hw, if_true]
  have hdone : exec .release s.done = .next (s.done.busCheck s.done.release) :=
    (tickedIO_of_ready (State.done_ready hr hdue) State.releaseNext).trans (by rw [State.releaseNext_of_done hbd hdue])
  refine (tickedIO_of_ready hr State.releaseNext).trans ?_
  rw [hdone, hnext]
  exact congrArg Host.Outcome.next (State.busCheck_congr (fun c => by cases c <;> simp [State.ctx]) _)

/-- Settles O32: the work that comes first, and a head by what its release leaves of each block. -/
theorem releaseOfLine : Obligations.ReleaseOfLine := by
  refine ⟨fun s => exec_release_workFirst, fun s l e rest hs hfifo => ?_⟩
  obtain ⟨hr, -⟩ := id hs
  let u := s.atInstant.releaseLine l e rest
  have hrel : s.released (.line l) = { u with tb := s.tb, du := s.du } := State.released_line_eq hfifo
  obtain ⟨hatt, hevt, hposted, hbus⟩ := s.atInstant.releaseLine_keepsRest l e rest
  have hctx (c : Chain) : (s.released (.line l)).ctx c = s.ctx c := by
    rw [hrel]
    cases c <;> simp [State.ctx, u]
  have hsends : (s.released (.line l)).ep.sends = s.ep.sends := by
    rw [hrel, Endpoint.sends, Endpoint.sends]
    exact congrArg₂ _ hbus.1 hbus.2
  have hexec : exec .release s = .next (s.released (.line l)) :=
    (exec_release_plain hs rfl).trans (congrArg _ (State.busCheck_of_same (by rw [hrel]; exact hposted) hsends hctx
      (State.writesFail_of_ready hr)))
  have hframe := s.released_frame (.line l)
  have hline := s.atInstant.releaseLine_line l e rest
  rw [hrel] at hexec hframe
  refine ⟨_, s.tagOf e.group, hexec, rfl, State.releaseLine_pst .., hline.1, hline.2, State.releaseLine_sqm .., fun g => ?_, ?_⟩
  · refine ((s.atInstant.releaseLine_callCounted l e rest).1 g).trans ?_
    have hgroup : s.atInstant.group g = s.group g := rfl
    rw [hgroup]
    by_cases hg : g.val = e.group
    · by_cases hc : (s.group g).phase = .call
      · rw [if_pos hg, if_pos ⟨hg, hc⟩, Group.counted, if_pos hc]
      · rw [if_pos hg, if_neg (fun h => hc h.2), Group.counted, if_neg hc]
    · rw [if_neg hg, if_neg (fun h => hg h.1)]
  · refine hframe.trans ?_
    simp only [u, hatt, hevt, hposted]
    rfl

/-! ## A STAMP (R81, R156) -/

theorem State.released_engine_eq {s : State} {e : EngineEntry} {rest : List EngineEntry} (hfifo : s.evt.fifo = e :: rest) :
    s.released .engine = { s.atInstant.releaseEngine e rest with tb := s.tb, du := s.du } := by
  have h : s.atInstant.evt.fifo = e :: rest := hfifo
  simp only [State.released, State.releaseHead, h]

theorem State.writeBack_eq {s : State} (hw : s.prt.chains ≠ .waitDone) (e : EngineEntry) (r : Record) :
    s.writeBack e r = if e.writeBack then { s with
        posted := s.posted ++ e.writes r
        evt := { s.evt with writeBacks := s.evt.writeBacks ++ [{ block := e.block, seq := r.seq }] } } else s := by
  rw [State.writeBack, State.halted_eq_false hw, State.post_eq hw]
  cases e.writeBack <;> rfl

/-- A write-back changes the write-backs in flight and the writes. -/
theorem State.writeBack_frame (s : State) (e : EngineEntry) (r : Record) : s.writeBack e r = { s with
    evt := { s.evt with writeBacks := (s.writeBack e r).evt.writeBacks }, posted := (s.writeBack e r).posted } := by
  unfold State.writeBack
  split <;> rfl

/-- The bytes of a write-back, as the statements spell them. -/
theorem EngineEntry.writes_eq (e : EngineEntry) (seq : Nat) (tag : PhaseTag) (body : Body) :
    e.writes (e.record seq tag body) = e.backWrites seq tag body.resultStatus body.resultTail := by
  simp [EngineEntry.writes, EngineEntry.backWrites, EngineEntry.record, Record.resultBytes, plainWrite, blockWrite,
    statusWrite, bodyAddr, u8, pad, Nat.add_assoc]

/-- The record of the engine's head `e`. -/
def State.engineRecord (s : State) (e : EngineEntry) : Record :=
  e.record s.sqm.next ((s.useNumber.engineBody e).1.tagOf e.group) (s.useNumber.engineBody e).2

theorem State.releaseEngine_pst (s : State) (e : EngineEntry) (rest : List EngineEntry) :
    (s.releaseEngine e rest).pst = { s.pst with records := s.pst.records ++ [s.engineRecord e] } := by
  simp [State.releaseEngine, State.phaseTag_tag, State.engineRecord]

theorem State.releaseEngine_sqm (s : State) (e : EngineEntry) (rest : List EngineEntry) :
    (s.releaseEngine e rest).sqm = { (s.useNumber.engineBody e).1.sqm with tie := s.tieAfter .engine e.stamp } := by
  simp [State.releaseEngine, State.append_sqm]

theorem State.releaseEngine_callCounted (s : State) (e : EngineEntry) (rest : List EngineEntry) :
    (s.useNumber.engineBody e).1.callCounted (s.releaseEngine e rest) e.group := by
  have h : (s.releaseEngine e rest).atu = ((s.useNumber.engineBody e).1.phaseTag e.group).1.atu := by
    simp [State.releaseEngine]
  have hc := (s.useNumber.engineBody e).1.phaseTag_callCounted e.group
  simp only [State.callCounted, State.group, h] at hc ⊢
  exact hc

theorem State.releaseEngine_fifo (s : State) (e : EngineEntry) (rest : List EngineEntry) :
    (s.releaseEngine e rest).evt.fifo = rest ∧ (s.releaseEngine e rest).evt.ctx = s.evt.ctx
      ∧ (s.releaseEngine e rest).evt.blocks = s.evt.blocks := by
  unfold State.releaseEngine
  dsimp only
  rw [State.writeBack_frame]
  simp

theorem State.releaseEngine_unwritten {s : State} {e : EngineEntry} (h : e.writeBack = false) (rest : List EngineEntry) :
    (s.releaseEngine e rest).evt.writeBacks = s.evt.writeBacks ∧ (s.releaseEngine e rest).posted = s.posted := by
  simp [State.releaseEngine, State.writeBack, h]

theorem State.releaseEngine_written {s : State} {e : EngineEntry} (hw : s.prt.chains ≠ .waitDone) (h : e.writeBack = true)
    (rest : List EngineEntry) :
    (s.releaseEngine e rest).evt.writeBacks = s.evt.writeBacks ++ [{ block := e.block, seq := s.sqm.next }]
      ∧ (s.releaseEngine e rest).posted = s.posted ++ e.backWrites s.sqm.next (s.engineRecord e).tag
        (s.engineRecord e).body.resultStatus (s.engineRecord e).body.resultTail := by
  have hw' (t : State) (n : Nat) (r : Record) (ht : t.prt.chains = s.prt.chains) : (t.append n r).prt.chains ≠ .waitDone := by
    simpa [State.append, State.setRecords_port, ht] using hw
  unfold State.releaseEngine
  dsimp only
  rw [State.writeBack_eq (hw' _ _ _ (by simp)), if_pos h]
  simp only [State.append_same, State.phaseTag_same, State.engineBody_same, State.phaseTag_tag, EngineEntry.writes_eq]
  exact ⟨rfl, rfl⟩

theorem State.releaseEngine_sameBus (s : State) (e : EngineEntry) (rest : List EngineEntry) :
    s.sameBus (s.releaseEngine e rest) := by
  simp [State.releaseEngine, State.sameBus, State.append, State.setRecords_port]

/-- Settles O33: a STAMP by what the release of an engine's head leaves of each block. -/
theorem releaseOfStamp : Obligations.ReleaseOfStamp := by
  intro s e rest hs hc hw hfifo hkind
  let u := s.atInstant.releaseEngine e rest
  have hread : s.headReads .engine = false := by simp [State.headReads, hfifo, hkind]
  have hrel : s.released .engine = { u with tb := s.tb, du := s.du } := State.released_engine_eq hfifo
  have hbus : s.sameBus u := s.atInstant.releaseEngine_sameBus e rest
  have hbody : s.atInstant.useNumber.engineBody e = (s.atInstant.useNumber, .engine e.payload) := by
    simp only [State.engineBody, hkind]
  have hexec : exec .release s = .next (s.released .engine) :=
    (exec_release_plain hs hread).trans (next_busCheck hc (by rw [hrel]; exact hbus.1) (by rw [hrel]; exact hbus.2))
  have hframe := s.released_frame .engine
  have hcount := s.atInstant.releaseEngine_callCounted e rest
  have hsqm := s.atInstant.releaseEngine_sqm e rest
  rw [hbody] at hcount hsqm
  rw [hrel] at hexec hframe
  have hrecord : s.atInstant.engineRecord e = e.record s.sqm.next (s.tagOf e.group) (.engine e.payload) := by
    rw [State.engineRecord, hbody]
    rfl
  refine ⟨_, s.atInstant.engineRecord e, hexec, rfl, by rw [hrecord]; rfl, rfl, rfl, rfl, rfl, rfl, by rw [hrecord]; rfl, ?_,
    hcount, ?_, (s.atInstant.releaseEngine_fifo e rest).1, fun h => ?_, fun h => ?_, ?_⟩
  · exact hsqm.trans (SQM.useNumber_tie s.atInstant _)
  · exact congrArg PST.records (s.atInstant.releaseEngine_pst e rest)
  · have hwrite := State.releaseEngine_written (s := s.atInstant) hw h rest
    rw [hrecord] at hwrite ⊢
    exact hwrite
  · exact State.releaseEngine_unwritten (s := s.atInstant) h rest
  · refine hframe.trans ?_
    simp only [u, State.releaseEngine_same]
    rfl

end Sys2Proof.Machine
end

section
/-! The release of an EXTEND and of an engine ABANDON (O34). -/

namespace Sys2Proof.Machine

open Sys2Proof

/-! ## A release whose head reads now (R106, R109, R110) -/

theorem State.workDue_of_same {s t : State} (hd : t.du = s.du) (hc : t.clock = s.clock) : t.workDue = s.workDue := by
  simp only [State.workDue, State.actionDue, State.missingDue, State.holdoverDue, hd, hc]

/-- What RELEASE of the head of `src` leaves, where that head reads now. -/
def State.releasedReading (s : State) (src : Source) : State := s.releaseUnder (s.releaseReading src) src

theorem exec_release_reading {s : State} {src : Source} (h : s.releases src) (hread : s.headReads src = true) :
    exec .release s = .next (s.busCheck ((s.releasedReading src).reading.promise .time)) := by
  obtain ⟨-, -, -, -, hrel⟩ := id h
  have hnext : s.atInstant.nextRelease = some src := State.nextRelease_eq hrel
  refine (execRelease_of_releases h).trans ?_
  simp only [State.release, hnext, State.releaseFrom, hread, if_true, State.releasedReading]

/-- With no work due, the release reads the counter and DU as they are. -/
theorem State.releaseReading_of_rest {s : State} (h : s.workDue = false) (src : Source) :
    (s.releaseReading src).tb = s.tb ∧ (s.releaseReading src).du = s.du := by
  have hkept (t : State) (htb : t.tb = s.tb) (hdu : t.du = s.du) (hc : t.clock = s.clock) :
      t.left.tb = s.tb ∧ t.left.du = s.du := by
    rw [State.left_eq ((State.workDue_of_same hdu hc).trans h)]
    exact ⟨htb, hdu⟩
  unfold State.releaseReading
  split
  · exact hkept _ (by simp) (by simp) (by simp)
  · exact hkept s rfl rfl rfl

/-! ## The release action of an EXTEND (R109 to R111) -/

/-- The group's entry after an EXTEND stamped `t` that is accepted, its close-window timer not yet armed. -/
def Group.extended (x : Group) (t : Stamp) : Group :=
  { x with
    phase := .call, used := x.used + 1, windowTimer := false
    close := (if x.phase = .call then x.close else t.instant).add (msToNs x.x)
    drawn := if x.phase = .call then x.drawn else none
    closeTimer := if x.phase = .call then x.closeTimer else false }

/-- The records of the group that an EXTEND takes out of the agenda. -/
def Group.cancels (x : Group) : Body → Bool := if x.phase = .call then Body.isWindow else Body.isClose

theorem State.extendGroup_eq (s : State) (g : Fin 64) (t : Stamp) : s.extendGroup g t =
    ((s.removeGroupRecords g (s.group g).cancels).setGroup g ((s.group g).extended t)).armWindow g := by
  unfold State.extendGroup Group.cancels Group.extended
  by_cases h : (s.group g).phase = .call
  · simp only [h, if_true]
  · simp only [h, if_false]

section
variable (s : State) (g : Fin 64) (t : Stamp)

theorem State.extendGroup_group : (s.extendGroup g t).group g = { (s.group g).extended t with
    windowTimer := !((s.group g).extended t).close.ble s.instant } := by
  have hi : ((s.removeGroupRecords g (s.group g).cancels).setGroup g ((s.group g).extended t)).instant = s.instant := by
    simp [State.instant]
  rw [State.extendGroup_eq, State.armWindow, State.setGroup_group, hi]
  split
  · next h => simp [State.runWindow, h]
  · next h => simp [h]

theorem State.extendGroup_group_ne {k : Fin 64} (h : k ≠ g) : (s.extendGroup g t).group k = s.group k := by
  have hkeep (u : State) (x : Group) : (u.setGroup g x).group k = u.group k := u.setGroup_group_ne x h
  have hremove : (s.removeGroupRecords g (s.group g).cancels).group k = s.group k := rfl
  rw [State.extendGroup_eq, State.armWindow]
  split
  · rw [State.runWindow, State.create_group, hkeep, hkeep, hremove]
  · rw [hkeep, hkeep, hremove]

theorem State.extendGroup_alarms : (s.extendGroup g t).atu.alarms = s.atu.alarms := by
  rw [State.extendGroup_eq, State.armWindow]
  split <;> rfl

/-- The agenda that an EXTEND leaves before its new close may run out at once. -/
def State.extendKept : List Internal :=
  s.sqm.agenda.filter fun w => !(w.body.isGroup && w.group == g.val && (s.group g).cancels w.body)

theorem State.extendGroup_sqm : (s.extendGroup g t).sqm = { s.sqm with
    agenda := (s.extendGroup g t).sqm.agenda, created := (s.extendGroup g t).sqm.created } := by
  rw [State.extendGroup_eq, State.armWindow]
  split <;> rfl

theorem State.extendGroup_agenda_of_ahead (h : ((s.group g).extended t).close.ble s.instant = false) :
    (s.extendGroup g t).sqm.agenda = s.extendKept g := by
  rw [State.extendGroup_eq, State.armWindow, State.setGroup_group, if_neg (by rw [Bool.not_eq_true]; exact h)]
  rfl

theorem State.mem_extendGroup_agenda_of_past (h : ((s.group g).extended t).close.ble s.instant = true) (w : Internal) :
    w ∈ (s.extendGroup g t).sqm.agenda ↔ w ∈ s.extendKept g ∨ w =
      { stamp := ((s.group g).extended t).close.at s.tb.epoch, cls := s.du.cls, group := g.val, late := false,
        steppedOver := false, coalesced := false, count := 1, order := s.sqm.created, body := .window 0 0 none } := by
  rw [State.extendGroup_eq, State.armWindow, State.setGroup_group, if_pos (by exact h), State.runWindow,
    State.mem_create_of_isGroup _ _ _ _ _ _ (by rfl), State.setGroup_group, or_comm]
  rfl

end

/-- The answers to an EXTEND, as the statements spell them. -/
theorem Group.extendStatus_eq (x : Group) : x.extendStatus =
    if x.abandonPending then .state
    else if x.phase = .closed then .late
    else if x.phase = .idle ∨ x.phase = .armed then .state
    else if x.used = x.m then .limit else .ok := by
  unfold Group.extendStatus
  cases x.phase <;> simp

theorem Group.extendStatus_ok (x : Group) : x.extendStatus = .ok ↔
    x.abandonPending = false ∧ (x.phase = .call ∨ x.phase = .closing) ∧ x.used ≠ x.m := by
  unfold Group.extendStatus
  cases x.abandonPending <;> cases x.phase <;> simp

/-- The state in which an EXTEND of group `g` is recorded. -/
def State.extendedBy (s : State) (g : Fin 64) (t : Stamp) : State :=
  if (s.group g).extendStatus = .ok then s.extendGroup g t else s

theorem State.releaseExtend_eq (s : State) {n : Nat} {g : Fin 64} (h : n = g.val) (t : Stamp) :
    s.releaseExtend n t = (s.extendedBy g t,
      { status := (s.group g).extendStatus, phase := ((s.extendedBy g t).group g).phase,
        used := ((s.extendedBy g t).group g).used,
        close := some (((s.extendedBy g t).group g).close.at s.tb.epoch) }) := by
  have htb : (s.extendedBy g t).tb = s.tb := by
    unfold State.extendedBy
    split <;> simp
  rw [← htb]
  simp only [State.releaseExtend, groupOf_eq h.symm, State.extendedBy]

theorem State.tagOf_group (s : State) (g : Fin 64) : s.tagOf g.val = (s.group g).phase.tag := by
  rw [State.tagOf, dif_pos g.isLt]
  cases (s.group g).phase <;> rfl

/-! ## The groups and the agenda after an EXTEND -/

section
variable (s : State) (g : Fin 64) (t : Stamp)

theorem State.extendedBy_sqm : (s.extendedBy g t).sqm = { s.sqm with
    agenda := (s.extendedBy g t).sqm.agenda, created := (s.extendedBy g t).sqm.created } := by
  unfold State.extendedBy
  split
  · exact s.extendGroup_sqm g t
  · rfl

theorem State.extendedBy_keeps : (s.extendedBy g t).atu.alarms = s.atu.alarms
    ∧ (s.extendedBy g t).atu.generator = s.atu.generator
    ∧ ∀ k : Fin 64, k ≠ g → (s.extendedBy g t).group k = s.group k := by
  unfold State.extendedBy
  split
  · exact ⟨s.extendGroup_alarms g t, s.extendGroup_generator g t, fun k => s.extendGroup_group_ne g t⟩
  · exact ⟨rfl, rfl, fun _ _ => rfl⟩

end

theorem State.callCounted_group {s t : State} {g : Fin 64} (h : s.callCounted t g.val) :
    t.group g = { s.group g with callCount := (s.group g).counted } := by
  rw [h.1 g, if_pos rfl]

theorem State.callCounted_group_ne {s t : State} {n : Nat} {g : Fin 64} (h : s.callCounted t n) (hg : g.val ≠ n) :
    t.group g = s.group g := by
  rw [h.1 g, if_neg hg]

theorem State.useNumber_agenda (s : State) : s.useNumber.sqm.agenda = s.sqm.agenda := by
  unfold State.useNumber SQM.useNumber
  split <;> rfl

theorem State.useNumber_first (s : State) : s.useNumber.sqm.first = s.sqm.first := by
  unfold State.useNumber SQM.useNumber
  split <;> rfl

theorem State.useNumber_created (s : State) : s.useNumber.sqm.created = s.sqm.created := by
  unfold State.useNumber SQM.useNumber
  split <;> rfl

theorem State.useNumber_sqm_with (s : State) (tie created : Nat) (agenda : List Internal) :
    { s.useNumber.sqm with agenda := agenda, created := created, tie := tie } = { s.numberTaken tie with
      agenda := agenda, created := created } := by
  rw [← SQM.useNumber_tie s tie]
  rfl

theorem State.useNumber_sqm_agenda (s : State) (tie : Nat) (agenda : List Internal) :
    { s.useNumber.sqm with agenda := agenda, tie := tie } = { s.numberTaken tie with agenda := agenda } := by
  rw [← SQM.useNumber_tie s tie]
  rfl

/-- What RELEASE of the engine's head `e` leaves. -/
def State.engineReleased (s : State) (e : EngineEntry) (rest : List EngineEntry) : State :=
  { State.releaseEngine { s with tb := (s.releaseReading .engine).tb, du := (s.releaseReading .engine).du } e rest with
    tb := s.tb, du := s.du }

/-- An engine's head, of whatever kind, is released; an EXTEND reads now. -/
theorem exec_release_engine {s : State} {e : EngineEntry} {rest : List EngineEntry} (hs : s.releases .engine)
    (hc : s.carries) (hfifo : s.evt.fifo = e :: rest) : exec .release s
      = .next (if e.kind = .extend then (s.engineReleased e rest).reading.promise .time else s.engineReleased e rest) := by
  have hbus : s.sameBus (s.engineReleased e rest) := State.releaseEngine_sameBus _ e rest
  have hhead (tb : TB) (du : DU) : State.releaseHead { s with tb := tb, du := du } .engine
      = State.releaseEngine { s with tb := tb, du := du } e rest := by
    simp only [State.releaseHead, hfifo]
  by_cases hkind : e.kind = .extend
  · have hread : s.headReads .engine = true := by simp [State.headReads, hfifo, hkind]
    have hrel : s.releasedReading .engine = s.engineReleased e rest :=
      congrArg (fun z : State => { z with tb := s.tb, du := s.du }) (hhead _ _)
    refine (exec_release_reading hs hread).trans ?_
    rw [hrel, if_pos hkind]
    exact next_busCheck hc (by simpa using hbus.1) (by simpa using hbus.2)
  · have hread : s.headReads .engine = false := by simp [State.headReads, hfifo, hkind]
    have hv : s.releaseReading .engine = s.left := if_neg (by simp [hread])
    have hrel : s.released .engine = s.engineReleased e rest := by
      rw [State.engineReleased, hv]
      exact congrArg (fun z : State => { z with tb := s.tb, du := s.du }) (hhead _ _)
    refine (exec_release_plain hs hread).trans ?_
    rw [hrel, if_neg hkind]
    exact next_busCheck hc hbus.1 hbus.2

/-- The first part of O34. -/
theorem releaseOfExtend (s : State) (e : EngineEntry) (rest : List EngineEntry) (g : Fin 64)
    (hs : s.releases .engine) (hc : s.carries) (hfifo : s.evt.fifo = e :: rest) (hkind : e.kind = .extend)
    (hg : e.group = g.val) :
     let x := s.group g
     let ok : Prop := x.abandonPending = false ∧ (x.phase = .call ∨ x.phase = .closing) ∧ x.used ≠ x.m
     let status : SlotStatus :=
       if x.abandonPending then .state
       else if x.phase = .closed then .late
       else if x.phase = .idle ∨ x.phase = .armed then .state
       else if x.used = x.m then .limit else .ok
     let v := s.releaseReading .engine
     let tie := ({ s with tb := v.tb, du := v.du } : State).tieAfter .engine e.stamp
     (s.workDue = false → v.tb = s.tb ∧ v.du = s.du) ∧ ∃ (t : State) (r : Record) (a : ExtendResult),
       exec .release s = .next (t.reading.promise .time)
       ∧ t.pst.records = s.pst.records ++ [r] ∧ r.seq = s.sqm.next ∧ r.stamp = e.stamp
       ∧ r.body = .extend a ∧ a.status = status ∧ a.phase = (t.group g).phase ∧ a.used = (t.group g).used
       ∧ (ok → r.tag = .call
           ∧ t.group g = { x with
               phase := .call, used := x.used + 1, callCount := min 4294967295 (x.callCount + 1)
               close := (if x.phase = .call then x.close else e.stamp.instant).add (x.x * 1000000)
               drawn := if x.phase = .call then x.drawn else none
               closeTimer := if x.phase = .call then x.closeTimer else false
               windowTimer := (t.group g).windowTimer }
           ∧ (let kept := s.sqm.agenda.filter fun w => !(w.body.isGroup && w.group == g.val
                && (if x.phase = .call then w.body.isWindow else w.body.isClose))
              let close := (t.group g).close
              let past : Prop := close.sec < v.tb.sec ∨ (close.sec = v.tb.sec ∧ close.ns ≤ v.tb.ns)
              (¬ past → (t.group g).windowTimer = true ∧ t.sqm.agenda = kept)
                ∧ (past → (t.group g).windowTimer = false
                  ∧ (∀ w : Internal, w ∈ t.sqm.agenda ↔ w ∈ kept ∨ w =
                      { stamp := close.at v.tb.epoch, cls := v.du.cls, group := g.val, late := false,
                        steppedOver := false, coalesced := false, count := 1, order := s.sqm.created,
                        body := .window 0 0 none }))))
       ∧ (¬ ok → t.sqm.agenda = s.sqm.agenda ∧ r.tag = s.tagOf g.val
           ∧ t.group g = { x with callCount := x.counted })
       ∧ t.sqm = { s.numberTaken tie with agenda := t.sqm.agenda, created := t.sqm.created }
       ∧ t.atu.alarms = s.atu.alarms ∧ t.atu.generator = s.atu.generator
       ∧ (e.writeBack = true → s.prt.chains ≠ .waitDone → a.close = some ((t.group g).close.at v.tb.epoch)
           ∧ t.posted = s.posted ++ e.backWrites s.sqm.next r.tag status
             ([BitVec.ofNat 8 a.used, 0#8, 0#8] ++ time12? a.close))
       ∧ (e.writeBack = false → t.posted = s.posted)
       ∧ ∀ g' : Fin 64, g' ≠ g → t.group g' = s.group g' := by
  intro x ok status v tie
  refine ⟨fun h => State.releaseReading_of_rest h _, ?_⟩
  let u : State := { s with tb := v.tb, du := v.du }
  let y := u.useNumber
  let w := y.extendedBy g e.stamp
  let a : ExtendResult :=
    ⟨x.extendStatus, (w.group g).phase, (w.group g).used, some ((w.group g).close.at v.tb.epoch)⟩
  let t : State := { u.releaseEngine e rest with tb := s.tb, du := s.du }
  have hbody : y.engineBody e = (w, .extend a) := by
    simp only [State.engineBody, hkind, State.releaseExtend_eq y hg]
    rfl
  have hexec : exec .release s = .next (t.reading.promise .time) :=
    (exec_release_engine hs hc hfifo).trans (congrArg _ (if_pos hkind))
  have hcount : w.callCounted t g.val := by
    have h := u.releaseEngine_callCounted e rest
    rw [show u.useNumber.engineBody e = _ from hbody, hg] at h
    exact h
  have hgroup := State.callCounted_group hcount
  have hrecord : u.engineRecord e = e.record s.sqm.next (w.tagOf e.group) (.extend a) := by
    rw [State.engineRecord, show u.useNumber.engineBody e = _ from hbody]
  have hsqm : t.sqm = { w.sqm with tie := tie } := by
    have h := u.releaseEngine_sqm e rest
    rw [show u.useNumber.engineBody e = _ from hbody] at h
    exact h
  have hstatus : x.extendStatus = status := x.extendStatus_eq
  have hok : x.extendStatus = .ok ↔ ok := x.extendStatus_ok
  obtain ⟨halarms, hgenerator, hother⟩ := y.extendedBy_keeps g e.stamp
  have htag : (e.record s.sqm.next (w.tagOf e.group) (.extend a)).tag = (w.group g).phase.tag := by
    rw [hg]
    exact w.tagOf_group g
  refine ⟨t, e.record s.sqm.next (w.tagOf e.group) (.extend a), a, hexec, ?_, rfl, rfl, rfl, hstatus, ?_, ?_, fun h => ?_,
    fun h => ?_, ?_, hcount.2.1.trans halarms, hcount.2.2.trans hgenerator, fun hb hw => ⟨?_, ?_⟩, fun hb => ?_, fun k hk => ?_⟩
  · rw [← hrecord]
    exact congrArg PST.records (u.releaseEngine_pst e rest)
  · rw [hgroup]
  · rw [hgroup]
  · have hw : w = y.extendGroup g e.stamp := if_pos (hok.2 h)
    have hclose : (x.extended e.stamp).close = (if x.phase = .call then x.close else e.stamp.instant).add (x.x * 1000000) := rfl
    have hwg : w.group g = { x.extended e.stamp with windowTimer := !(x.extended e.stamp).close.ble y.instant } := by
      rw [hw]
      exact y.extendGroup_group g e.stamp
    have hkept : y.extendKept g = s.sqm.agenda.filter fun w => !(w.body.isGroup && w.group == g.val
        && (if x.phase = .call then w.body.isWindow else w.body.isClose)) := by
      have hcancels (b : Body) : x.cancels b = if x.phase = .call then b.isWindow else b.isClose := by
        unfold Group.cancels
        split <;> rfl
      simp only [← hcancels]
      exact congrArg (List.filter _) u.useNumber_agenda
    rw [hgroup, hwg, htag, hwg]
    refine ⟨rfl, rfl, ?_⟩
    intro kept close past
    have hpast : (x.extended e.stamp).close.ble y.instant = true ↔ past := State.past_iff _ y
    refine ⟨fun hp => ⟨?_, ?_⟩, fun hp => ⟨?_, fun z => ?_⟩⟩
    · rw [Bool.eq_false_iff.2 (mt hpast.1 hp)]
      rfl
    · have h := y.extendGroup_agenda_of_ahead g e.stamp (Bool.eq_false_iff.2 (mt hpast.1 hp))
      rw [← hw, hkept] at h
      rw [hsqm]
      exact h
    · rw [hpast.2 hp]
      rfl
    · have h := y.mem_extendGroup_agenda_of_past g e.stamp (hpast.2 hp) z
      rw [← hw, hkept, show y.sqm.created = s.sqm.created from u.useNumber_created] at h
      rw [hsqm]
      exact h
  · have hw : w = y := if_neg fun hx => h (hok.1 hx)
    rw [hsqm, htag, hgroup, hw, s.tagOf_group]
    exact ⟨u.useNumber_agenda, rfl, rfl⟩
  · have hw : w.sqm = { y.sqm with agenda := w.sqm.agenda, created := w.sqm.created } := y.extendedBy_sqm g e.stamp
    rw [hsqm]
    refine (congrArg (fun q : SQM => { q with tie := tie }) hw).trans ?_
    exact State.useNumber_sqm_with u tie _ _
  · rw [hgroup]
  · have h := (State.releaseEngine_written (s := u) hw hb rest).2
    rw [hrecord] at h
    rw [← hstatus]
    exact h
  · exact (State.releaseEngine_unwritten (s := u) hb rest).2
  · rw [State.callCounted_group_ne hcount (fun h => hk (Fin.ext h))]
    exact hother k hk

/-! ## The release action of an engine ABANDON (R112) -/

/-- The state in which an engine ABANDON of group `g` is recorded. -/
def State.abandonedBy (s : State) (g : Fin 64) : State :=
  if (s.group g).running && !(s.group g).abandonPending then
    (s.removeGroupRecords g fun _ => true).setGroup g Group.powerOn else s

/-- The answers to an engine ABANDON, as the statements spell them. -/
def Group.abandonStatus (x : Group) : SlotStatus :=
  if x.abandonPending then .state else if x.phase = .call ∨ x.phase = .closing then .ok else .state

theorem State.releaseAbandon_eq (s : State) {n : Nat} {g : Fin 64} (h : n = g.val) : s.releaseAbandon n =
    (s.abandonedBy g, engineAbandon (s.group g).abandonStatus (s.group g).phase) := by
  simp only [State.releaseAbandon, groupOf_eq h.symm, State.abandonedBy, Group.abandonStatus]
  cases hp : (s.group g).abandonPending <;> cases hr : (s.group g).running
  all_goals
    have hrun := Group.running_iff (s.group g)
    simp_all

section
variable (s : State) (g : Fin 64)

theorem State.abandonedBy_keeps : (s.abandonedBy g).atu.alarms = s.atu.alarms
    ∧ (s.abandonedBy g).atu.generator = s.atu.generator
    ∧ (∀ k : Fin 64, k ≠ g → (s.abandonedBy g).group k = s.group k)
    ∧ (s.abandonedBy g).sqm = { s.sqm with agenda := (s.abandonedBy g).sqm.agenda } := by
  unfold State.abandonedBy
  split
  · exact ⟨rfl, rfl, fun k hk => State.setGroup_group_ne _ _ hk, rfl⟩
  · exact ⟨rfl, rfl, fun _ _ => rfl, rfl⟩

end

/-- The second part of O34. -/
theorem releaseOfAbandon (s : State) (e : EngineEntry) (rest : List EngineEntry) (g : Fin 64)
    (hs : s.releases .engine) (hc : s.carries) (hfifo : s.evt.fifo = e :: rest) (hkind : e.kind = .abandon)
    (hg : e.group = g.val) :
     let x := s.group g
     let ok : Prop := x.abandonPending = false ∧ (x.phase = .call ∨ x.phase = .closing)
     ∃ (t : State) (r : Record), exec .release s = .next t
       ∧ t.pst.records = s.pst.records ++ [r] ∧ r.seq = s.sqm.next ∧ r.stamp = e.stamp
       ∧ r.body = .abandon { status := x.abandonStatus, cause := .engine, phase := x.phase, used := 0,
                             callCount := 0, close := none, drawn := none }
       ∧ (ok → t.group g = Group.powerOn ∧ r.tag = .opened
           ∧ t.sqm.agenda = s.sqm.agenda.filter fun w => !(w.body.isGroup && w.group == g.val))
       ∧ (¬ ok → t.sqm.agenda = s.sqm.agenda ∧ r.tag = s.tagOf g.val
           ∧ t.group g = { x with callCount := x.counted })
       ∧ t.sqm = { s.numberTaken (s.atInstant.tieAfter .engine e.stamp) with agenda := t.sqm.agenda }
       ∧ t.atu.alarms = s.atu.alarms ∧ t.atu.generator = s.atu.generator
       ∧ (e.writeBack = true → s.prt.chains ≠ .waitDone →
           t.posted = s.posted ++ e.backWrites s.sqm.next r.tag x.abandonStatus
             ([BitVec.ofNat 8 x.phase.code] ++ pad 6))
       ∧ (e.writeBack = false → t.posted = s.posted)
       ∧ ∀ g' : Fin 64, g' ≠ g → t.group g' = s.group g' := by
  intro x ok
  let u := s.atInstant
  let y := u.useNumber
  let w := y.abandonedBy g
  let t : State := { u.releaseEngine e rest with tb := s.tb, du := s.du }
  have hbody : y.engineBody e = (w, .abandon (engineAbandon x.abandonStatus x.phase)) := by
    simp only [State.engineBody, hkind, State.releaseAbandon_eq y hg]
    rfl
  have hexec : exec .release s = .next t := by
    have hread : s.headReads .engine = false := by simp [State.headReads, hfifo, hkind]
    have hv : s.releaseReading .engine = s.left := if_neg (by simp [hread])
    have ht : s.engineReleased e rest = t := by
      rw [State.engineReleased, hv]
      rfl
    refine (exec_release_engine hs hc hfifo).trans (congrArg _ ?_)
    rw [if_neg (by simp [hkind]), ht]
  have hcount : w.callCounted t g.val := by
    have h := u.releaseEngine_callCounted e rest
    rw [show u.useNumber.engineBody e = _ from hbody, hg] at h
    exact h
  have hgroup := State.callCounted_group hcount
  have hrecord : u.engineRecord e
      = e.record s.sqm.next (w.tagOf e.group) (.abandon (engineAbandon x.abandonStatus x.phase)) := by
    rw [State.engineRecord, show u.useNumber.engineBody e = _ from hbody]
    rfl
  have hsqm : t.sqm = { w.sqm with tie := u.tieAfter .engine e.stamp } := by
    have h := u.releaseEngine_sqm e rest
    rw [show u.useNumber.engineBody e = _ from hbody] at h
    exact h
  have hok : ((y.group g).running && !(y.group g).abandonPending) = true ↔ ok := by
    rw [Bool.and_eq_true, Bool.not_eq_true', Group.running_iff, and_comm]
    rfl
  obtain ⟨halarms, hgenerator, hother, hnum⟩ := y.abandonedBy_keeps g
  have htag : (u.engineRecord e).tag = (w.group g).phase.tag := by
    rw [hrecord, hg]
    exact w.tagOf_group g
  refine ⟨t, u.engineRecord e, hexec, congrArg PST.records (u.releaseEngine_pst e rest), rfl, rfl, ?_, fun h => ?_,
    fun h => ?_, ?_, hcount.2.1.trans halarms, hcount.2.2.trans hgenerator, fun hb hw => ?_,
    fun hb => (State.releaseEngine_unwritten (s := u) hb rest).2, fun k hk => ?_⟩
  · rw [hrecord]
    rfl
  · have hw : w = (y.removeGroupRecords g fun _ => true).setGroup g Group.powerOn := if_pos (hok.2 h)
    have hwg : w.group g = Group.powerOn := by rw [hw, State.setGroup_group]
    rw [hgroup, htag, hwg, hsqm, hw]
    refine ⟨rfl, rfl, ?_⟩
    simp [State.removeGroupRecords, State.removeRecords, y, u, State.useNumber_agenda]
  · have hw : w = y := if_neg fun hx => h (hok.1 hx)
    rw [hsqm, htag, hgroup, hw, s.tagOf_group]
    exact ⟨u.useNumber_agenda, rfl, rfl⟩
  · rw [hsqm]
    refine (congrArg (fun q : SQM => { q with tie := u.tieAfter .engine e.stamp }) hnum).trans ?_
    exact State.useNumber_sqm_agenda u _ _
  · have h := (State.releaseEngine_written (s := u) hw hb rest).2
    rw [hrecord] at h ⊢
    exact h
  · rw [State.callCounted_group_ne hcount (fun h => hk (Fin.ext h))]
    exact hother k hk

/-! ## Group 255 (R111, R112) -/

/-- The third part of O34. -/
theorem releaseOfUngrouped (s : State) (e : EngineEntry) (rest : List EngineEntry) (hs : s.releases .engine)
    (hc : s.carries) (hfifo : s.evt.fifo = e :: rest) (hg : e.group = 255) (hkind : e.kind = .extend ∨ e.kind = .abandon) :
     let v := s.releaseReading .engine
     let tie := ({ s with tb := v.tb, du := v.du } : State).tieAfter .engine e.stamp
     ∃ (t : State) (r : Record), exec .release s = .next (if e.kind = .extend then t.reading.promise .time else t)
       ∧ t.pst.records = s.pst.records ++ [r] ∧ r.seq = s.sqm.next ∧ r.stamp = e.stamp ∧ r.tag = .none
       ∧ (e.kind = .extend →
           r.body = .extend { status := .state, phase := .idle, used := 0, close := none })
       ∧ (e.kind = .abandon → r.body = .abandon
           { status := .state, cause := .engine, phase := .idle, used := 0, callCount := 0, close := none,
             drawn := none })
       ∧ (e.writeBack = true → s.prt.chains ≠ .waitDone →
           t.posted = s.posted ++ e.backWrites s.sqm.next .none .state
             (if e.kind = .extend then pad 15 else pad 7))
       ∧ t.atu = s.atu ∧ t.sqm = s.numberTaken tie := by
  intro v tie
  let u : State := { s with tb := v.tb, du := v.du }
  have hnone : groupOf e.group = none := groupOf_none (by omega)
  let body : Body := if e.kind = .extend then .extend { status := .state, phase := .idle, used := 0, close := none }
    else .abandon (engineAbandon .state .idle)
  have hbody : u.useNumber.engineBody e = (u.useNumber, body) := by
    rcases hkind with h | h <;>
      simp [State.engineBody, body, h, State.releaseExtend, State.releaseAbandon, hnone]
  have hrecord : u.engineRecord e = e.record s.sqm.next .none body := by
    rw [State.engineRecord, hbody, State.tagOf, dif_neg (by omega)]
  have hsqm : (s.engineReleased e rest).sqm = s.numberTaken tie := by
    refine (u.releaseEngine_sqm e rest).trans ?_
    rw [hbody]
    exact SQM.useNumber_tie u tie
  refine ⟨_, u.engineRecord e, exec_release_engine hs hc hfifo, congrArg PST.records (u.releaseEngine_pst e rest), rfl, rfl,
    by rw [hrecord]; rfl, fun h => ?_, fun h => ?_, fun hb hw => ?_, ?_, hsqm⟩
  · rw [hrecord]
    exact if_pos h
  · rw [hrecord]
    exact if_neg (by simp [h])
  · refine (State.releaseEngine_written (s := u) hw hb rest).2.trans ?_
    rw [hrecord]
    rcases hkind with h | h
    · have hbe : (e.record s.sqm.next .none body).body = .extend ⟨.state, .idle, 0, none⟩ := if_pos h
      rw [hbe, if_pos h]
      rfl
    · have hbe : (e.record s.sqm.next .none body).body = .abandon (engineAbandon .state .idle) := if_neg (by simp [h])
      rw [hbe, if_neg (by simp [h])]
      rfl
  · have hatu : (u.releaseEngine e rest).atu = ((u.useNumber.engineBody e).1.phaseTag e.group).1.atu := by
      simp [State.releaseEngine]
    refine hatu.trans ?_
    rw [hbody, State.phaseTag, hnone]
    simp [u]

/-- Settles O34: each kind of request, and group 255. -/
theorem releaseOfEngineRequest : Obligations.ReleaseOfEngineRequest :=
  ⟨releaseOfExtend, releaseOfAbandon, releaseOfUngrouped⟩

end Sys2Proof.Machine
end

section
/-! The release of the agenda's head: group records, records without a group, ATTEST and WINDOW (O35 to O37). -/

namespace Sys2Proof.Machine

open Sys2Proof

/-! ## The scopes that a release completes (R121, R174, R186) -/

/-- A released record of this body completes the CHAINS scope. -/
def State.completesChains (s : State) (b : Body) : Bool := b.isDiscard && s.prt.chains == .waitDiscard

/-- A released record of this body completes the AUCTIONS scope. -/
def State.completesAuctions (s : State) (b : Body) : Bool :=
  b.isReset && s.prt.auctions == .waitAbandon && !s.sqm.agenda.any fun e => e.body.isReset

theorem State.notify_resetDone (s : State) : (s.notify .resetDone).prt.notice.getLsbD 14 = true :=
  State.notifyIf_notice (s := s) (b := true) (c := .resetDone) rfl

section
variable (s : State) (b : Body)

theorem State.completeScopes_eq : s.completeScopes b =
    let s1 := if s.completesChains b then ({ s with prt := { s.prt with chains := .idle } } : State).notify .resetDone else s
    if s.completesAuctions b then ({ s1 with prt := { s1.prt with auctions := .idle } } : State).notify .resetDone else s1 := by
  unfold State.completeScopes State.completesAuctions State.completesChains
  cases b.isDiscard && s.prt.chains == .waitDiscard <;> rfl

theorem State.completeScopes_prt :
    (s.completeScopes b).prt.chains = (if s.completesChains b then .idle else s.prt.chains)
      ∧ (s.completeScopes b).prt.auctions = (if s.completesAuctions b then .idle else s.prt.auctions) := by
  rw [State.completeScopes_eq]
  cases s.completesChains b <;> cases s.completesAuctions b <;> exact ⟨rfl, rfl⟩

theorem State.completeScopes_keepsNotices : s.KeepsNotices (s.completeScopes b) := by
  have h (t : State) (prt : PRT) (hp : prt.notice = t.prt.notice) :
      t.KeepsNotices (({ t with prt := prt } : State).notify .resetDone) :=
    .thenNotify (by exact ⟨fun i hi => by rw [hp]; exact hi⟩) _
  have hite (t : State) (c : Bool) (prt : PRT) (hp : prt.notice = t.prt.notice) :
      t.KeepsNotices (if c then ({ t with prt := prt } : State).notify .resetDone else t) := .ite (h t prt hp) (.refl t)
  rw [State.completeScopes_eq]
  refine (hite s (s.completesChains b) { s.prt with chains := .idle } rfl).trans ?_
  generalize (if s.completesChains b then ({ s with prt := { s.prt with chains := .idle } } : State).notify .resetDone
    else s) = s1
  exact hite s1 _ { s1.prt with auctions := .idle } rfl

theorem State.completeScopes_announces (h : s.completesChains b = true ∨ s.completesAuctions b = true) :
    (s.completeScopes b).prt.notice.getLsbD 14 = true := by
  rw [State.completeScopes_eq]
  dsimp only
  split
  · exact State.notify_resetDone _
  · next ha =>
    rw [if_pos (h.resolve_right ha)]
    exact State.notify_resetDone _

theorem State.completeScopes_sameBus : s.sameBus (s.completeScopes b) := by
  rw [State.completeScopes_eq]
  cases s.completesChains b <;> cases s.completesAuctions b <;> exact ⟨rfl, rfl⟩

end

/-! ## The release of the agenda's head -/

theorem State.releaseGroup_sameBus (s : State) (g : Fin 64) (b : Body) : s.sameBus (s.releaseGroup g b) := by
  cases b <;> exact ⟨rfl, rfl⟩

theorem State.internalBody_sameBus (s : State) (e : Internal) (n : Nat) : s.sameBus (s.internalBody e n).1 := by
  unfold State.internalBody
  split
  · exact State.sameBus_of_ep (by simp)
  · exact ⟨rfl, rfl⟩
  · exact s.releaseGroup_sameBus _ _
  · dsimp only
    split
    · exact s.releaseGroup_sameBus _ _
    · exact ⟨rfl, rfl⟩
  · exact ⟨rfl, rfl⟩

/-- The part whose next number is used and whose agenda is the rest. -/
def State.withoutHead (s : State) (rest : List Internal) : State :=
  { s.useNumber with sqm := { s.useNumber.sqm with agenda := rest } }

/-- What RELEASE of the agenda's head `e` leaves. -/
def State.internalReleased (s : State) (e : Internal) (rest : List Internal) : State :=
  { State.releaseInternal { s with tb := (s.releaseReading .internal).tb, du := (s.releaseReading .internal).du } e rest with
    tb := s.tb, du := s.du }

section
variable {s w : State} {e : Internal} {rest : List Internal} {body : Body}

theorem State.releaseInternal_eq (h : (s.withoutHead rest).internalBody e s.sqm.next = (w, body)) :
    s.releaseInternal e rest = ((w.phaseTag e.group).1.append s.sqm.tie
      (e.record s.sqm.next (w.tagOf e.group) body)).completeScopes e.body := by
  rw [← State.phaseTag_tag]
  unfold State.releaseInternal
  dsimp only
  unfold State.withoutHead at h
  rw [h]

section
variable (h : (s.withoutHead rest).internalBody e s.sqm.next = (w, body))
include h

theorem State.releaseInternal_pst : (s.releaseInternal e rest).pst = { s.pst with
    records := s.pst.records ++ [e.record s.sqm.next (w.tagOf e.group) body] } := by
  have hw : w.pst = s.pst := by
    have := (s.withoutHead rest).internalBody_same e s.sqm.next
    rw [h] at this
    simp_all [State.withoutHead]
  simp [State.releaseInternal_eq h, hw]

theorem State.releaseInternal_sqm : (s.releaseInternal e rest).sqm = { w.sqm with tie := s.sqm.tie } := by
  simp [State.releaseInternal_eq h, State.append_sqm]

theorem State.releaseInternal_att : (s.releaseInternal e rest).att = w.att := by
  simp [State.releaseInternal_eq h]

theorem State.releaseInternal_callCounted : w.callCounted (s.releaseInternal e rest) e.group := by
  have hatu : (s.releaseInternal e rest).atu = (w.phaseTag e.group).1.atu := by simp [State.releaseInternal_eq h]
  have hc := w.phaseTag_callCounted e.group
  simp only [State.callCounted, State.group, hatu] at hc ⊢
  exact hc

theorem State.releaseInternal_sameBus : w.sameBus (s.releaseInternal e rest) := by
  rw [State.releaseInternal_eq h]
  have hs := State.completeScopes_sameBus ((w.phaseTag e.group).1.append s.sqm.tie
    (e.record s.sqm.next (w.tagOf e.group) body)) e.body
  have ha : w.sameBus ((w.phaseTag e.group).1.append s.sqm.tie (e.record s.sqm.next (w.tagOf e.group) body)) := by
    simp [State.sameBus, State.append, State.setRecords_port]
  exact ⟨hs.1.trans ha.1, hs.2.trans ha.2⟩

theorem State.releaseInternal_keepsNotices : w.KeepsNotices (s.releaseInternal e rest) := by
  rw [State.releaseInternal_eq h]
  have htag : w.KeepsNotices (w.phaseTag e.group).1 := .of_prt (by simp)
  refine (htag.trans ?_).trans (State.completeScopes_keepsNotices ..)
  exact State.KeepsNotices.trans (by exact ⟨fun _ => id⟩) (State.setRecords_keepsNotices
    { (w.phaseTag e.group).1 with sqm := { (w.phaseTag e.group).1.sqm with tie := s.sqm.tie } } _)

/-- The scopes after the release. -/
theorem State.releaseInternal_scopes :
    (s.releaseInternal e rest).prt.chains = (if w.completesChains e.body then .idle else w.prt.chains)
      ∧ (s.releaseInternal e rest).prt.auctions = (if w.completesAuctions e.body then .idle else w.prt.auctions)
      ∧ (w.completesChains e.body = true ∨ w.completesAuctions e.body = true →
          (s.releaseInternal e rest).prt.notice.getLsbD 14 = true) := by
  rw [State.releaseInternal_eq h]
  generalize hz : (w.phaseTag e.group).1.append s.sqm.tie (e.record s.sqm.next (w.tagOf e.group) body) = z
  have hprt : z.prt.chains = w.prt.chains ∧ z.prt.auctions = w.prt.auctions := by
    subst hz
    simp [State.append, State.setRecords]
  have hsqm : z.sqm.agenda = w.sqm.agenda := by
    subst hz
    simp [State.append_sqm]
  have hc : z.completesChains e.body = w.completesChains e.body := by rw [State.completesChains, State.completesChains, hprt.1]
  have ha : z.completesAuctions e.body = w.completesAuctions e.body := by
    rw [State.completesAuctions, State.completesAuctions, hprt.2, hsqm]
  have hscopes := z.completeScopes_prt e.body
  have hannounce := z.completeScopes_announces e.body
  rw [hc, ha, hprt.1, hprt.2] at hscopes
  rw [hc, ha] at hannounce
  exact ⟨hscopes.1, hscopes.2, hannounce⟩

end
end

/-- What no release of the agenda's head changes. -/
theorem State.internalReleased_frame (s : State) (e : Internal) (rest : List Internal) :
    s.internalReleased e rest = { s with
      pst := (s.internalReleased e rest).pst, lines := (s.internalReleased e rest).lines,
      sqm := (s.internalReleased e rest).sqm, atu := (s.internalReleased e rest).atu,
      att := (s.internalReleased e rest).att, prt := (s.internalReleased e rest).prt,
      ep := (s.internalReleased e rest).ep, wire := (s.internalReleased e rest).wire } := by
  let u : State := { s with tb := (s.releaseReading .internal).tb, du := (s.releaseReading .internal).du }
  have h := u.releaseInternal_same e rest
  unfold State.internalReleased
  generalize u.releaseInternal e rest = t at h
  obtain ⟨h1, h2, h3, h4, -, -, h5, h6, h7, h8, h9, h10⟩ := h
  cases t
  subst h1 h2 h3 h4 h5 h6 h7 h8 h9 h10
  rfl

/-- The agenda's head, of whatever kind, is released; a WINDOW reads now. -/
theorem exec_release_internal {s : State} {e : Internal} {rest : List Internal} (hs : s.releases .internal)
    (hagenda : s.sqm.agenda = e :: rest) : exec .release s = .next
      (if e.body.isWindow then (s.internalReleased e rest).reading.promise .time else s.internalReleased e rest) := by
  obtain ⟨hr, -⟩ := id hs
  have hhead (tb : TB) (du : DU) : State.releaseHead { s with tb := tb, du := du } .internal
      = State.releaseInternal { s with tb := tb, du := du } e rest := by
    simp only [State.releaseHead, hagenda]
  have hsends : (s.internalReleased e rest).ep.sends = s.ep.sends := by
    let u : State := { s with tb := (s.releaseReading .internal).tb, du := (s.releaseReading .internal).du }
    have hbody := (u.withoutHead rest).internalBody_sameBus e u.sqm.next
    have hrelease : State.sameBus _ (u.releaseInternal e rest) := State.releaseInternal_sameBus rfl
    have hhead : s.sameBus (u.withoutHead rest) := State.sameBus_of_ep (by simp [State.withoutHead, u])
    rw [Endpoint.sends, Endpoint.sends]
    exact congrArg₂ _ (hrelease.1.trans (hbody.1.trans hhead.1)) (hrelease.2.trans (hbody.2.trans hhead.2))
  have hctx (c : Chain) : (s.internalReleased e rest).ctx c = s.ctx c := by
    cases c <;> simp [State.ctx, State.internalReleased]
  have hposted : (s.internalReleased e rest).posted = s.posted := by simp [State.internalReleased]
  by_cases hw : e.body.isWindow = true
  · have hread : s.headReads .internal = true := by simp [State.headReads, hagenda, hw]
    have hrel : s.releasedReading .internal = s.internalReleased e rest :=
      congrArg (fun z : State => { z with tb := s.tb, du := s.du }) (hhead _ _)
    refine (exec_release_reading hs hread).trans ?_
    rw [hrel, if_pos hw]
    refine congrArg Host.Outcome.next (State.busCheck_of_same (by simpa using hposted) (by simpa [Endpoint.sends] using hsends)
      (fun c => ?_) (State.writesFail_of_ready hr))
    rw [← hctx c]
    cases c <;> simp [State.ctx]
  · have hread : s.headReads .internal = false := by simpa [State.headReads, hagenda] using hw
    have hv : s.releaseReading .internal = s.left := if_neg (by simp [hread])
    have hrel : s.released .internal = s.internalReleased e rest := by
      rw [State.internalReleased, hv]
      exact congrArg (fun z : State => { z with tb := s.tb, du := s.du }) (hhead _ _)
    refine (exec_release_plain hs hread).trans ?_
    rw [hrel, if_neg hw]
    exact congrArg Host.Outcome.next (State.busCheck_of_same hposted hsends hctx (State.writesFail_of_ready hr))

/-! ## Records without a group (R81) -/

/-- A record of no group, but an ATTEST, is released with its own body, and its owner does nothing. -/
theorem State.internalBody_of_ungrouped {e : Internal} (s : State) (n : Nat) (hg : 64 ≤ e.group)
    (ha : ∀ a, e.body ≠ .attest a) : s.internalBody e n = (s, e.body) := by
  unfold State.internalBody
  rw [groupOf_none hg]
  cases hbody : e.body <;> simp_all

theorem State.internalBody_of_attest {e : Internal} {a : Attest} (s : State) (n : Nat) (h : e.body = .attest a) :
    s.internalBody e n = s.fillAttest a n := by
  simp only [State.internalBody, h]

theorem State.tagOf_ungrouped (s : State) {n : Nat} (h : 64 ≤ n) : s.tagOf n = .none := dif_neg (by omega)

theorem State.phaseTag_ungrouped (s : State) {n : Nat} (h : 64 ≤ n) : (s.phaseTag n).1 = s := by
  rw [State.phaseTag, groupOf_none h]

theorem State.releaseInternal_atu_of_ungrouped {s w : State} {e : Internal} {rest : List Internal} {body : Body}
    (h : (s.withoutHead rest).internalBody e s.sqm.next = (w, body)) (hg : 64 ≤ e.group) :
    (s.releaseInternal e rest).atu = w.atu := by
  simp [State.releaseInternal_eq h, State.phaseTag_ungrouped w hg]

/-- The second part of O35. -/
theorem releaseOfUngroupedRecord (s : State) (e : Internal) (rest : List Internal) (hs : s.releases .internal)
    (hagenda : s.sqm.agenda = e :: rest) (hg : 64 ≤ e.group) (hgroup : e.body.isGroup = false)
    (hattest : ∀ a, e.body ≠ .attest a) :
      ∃ (t : State) (r : Record), exec .release s = .next t
        ∧ t.pst = { s.pst with records := s.pst.records ++ [r] } ∧ t.sqm.agenda = rest
        ∧ t.sqm.tie = s.sqm.tie
        ∧ r = { body := e.body, source := 5, cls := e.cls, tag := .none, group := e.group, urgent := false,
                late := e.late, steppedOver := e.steppedOver, coalesced := e.coalesced, count := e.count,
                seq := s.sqm.next, stamp := e.stamp, hostTag := 0 }
        ∧ (∀ a b, e.body = .discard a b → s.prt.chains = .waitDiscard →
            t.prt.chains = .idle ∧ t.prt.notice.getLsbD 14 = true)
        ∧ ((∀ a b, e.body ≠ .discard a b) → t.prt.chains = s.prt.chains)
        ∧ t.prt.auctions = s.prt.auctions
        ∧ t = { s with pst := t.pst, lines := t.lines, sqm := t.sqm, prt := t.prt, ep := t.ep, wire := t.wire } := by
  let u : State := { s with tb := (s.releaseReading .internal).tb, du := (s.releaseReading .internal).du }
  have hbody : (u.withoutHead rest).internalBody e u.sqm.next = (u.withoutHead rest, e.body) :=
    State.internalBody_of_ungrouped _ _ hg hattest
  have hwindow : ¬ e.body.isWindow = true := by
    cases hb : e.body <;> simp_all [Body.isWindow, Body.isGroup, Body.kindRank]
  have hreset : e.body.isReset = false := by
    cases hb : e.body <;> simp_all [Body.isReset, Body.isGroup, Body.kindRank]
  have hexec := exec_release_internal hs hagenda
  rw [if_neg hwindow] at hexec
  have hsqm := State.releaseInternal_sqm hbody
  obtain ⟨hchains, hauctions, hannounce⟩ := State.releaseInternal_scopes hbody
  have hprt : (u.withoutHead rest).prt = s.prt := by simp [State.withoutHead, u]
  have hpst := State.releaseInternal_pst hbody
  rw [State.tagOf_ungrouped _ hg] at hpst
  rw [State.completesChains, hprt] at hchains hannounce
  refine ⟨_, e.record s.sqm.next .none e.body, hexec, hpst, congrArg SQM.agenda hsqm,
    (congrArg SQM.tie hsqm).trans rfl, rfl, fun a b hb hw => ⟨?_, ?_⟩, fun hb => ?_, ?_, ?_⟩
  · refine hchains.trans (if_pos ?_)
    simp [hb, hw, Body.isDiscard]
  · refine hannounce (.inl ?_)
    simp [hb, hw, Body.isDiscard]
  · refine hchains.trans (if_neg ?_)
    have : e.body.isDiscard = false := by
      cases hbody : e.body <;> simp_all [Body.isDiscard]
    simp [this]
  · refine hauctions.trans ((if_neg ?_).trans (congrArg PRT.auctions hprt))
    simp [State.completesAuctions, hreset]
  · have hatu : (u.releaseInternal e rest).atu = s.atu :=
      (State.releaseInternal_atu_of_ungrouped hbody hg).trans (by simp [State.withoutHead, u])
    have hatt : (u.releaseInternal e rest).att = s.att :=
      (State.releaseInternal_att hbody).trans (by simp [State.withoutHead, u])
    refine (s.internalReleased_frame e rest).trans ?_
    rw [show (s.internalReleased e rest).atu = _ from hatu, show (s.internalReleased e rest).att = _ from hatt]

/-! ## Group records other than WINDOW (R94, R99, R102, R108, R113) -/

/-- The body with which a group record other than a WINDOW is released: a CLOSE is filled (R108). -/
def State.filledBody (s : State) (e : Internal) (seq : Nat) : Body :=
  match e.body with
  | .close drawn _ _ _ => s.fillClose drawn e.group seq
  | b => b

theorem State.internalBody_of_group {e : Internal} {g : Fin 64} (s : State) (n : Nat) (hg : e.group = g.val)
    (hb : e.body.isGroup = true) (hw : e.body.isWindow = false) :
    s.internalBody e n = (s.releaseGroup g e.body, s.filledBody e n) := by
  unfold State.internalBody State.filledBody
  rw [groupOf_eq hg.symm]
  cases hbody : e.body <;> simp_all [Body.isWindow, Body.isGroup, Body.kindRank]

section
variable (s : State) (g : Fin 64) (b : Body)

theorem State.releaseGroup_group_ne {k : Fin 64} (h : k ≠ g) : (s.releaseGroup g b).group k = s.group k := by
  have hset (x : Group) : (s.setGroup g x).group k = s.group k := State.setGroup_group_ne _ _ h
  unfold State.releaseGroup
  split
  · exact hset _
  · exact hset _
  · exact hset _
  · exact hset _
  · rfl

theorem State.releaseGroup_scopes :
    (s.releaseGroup g b).prt.chains = s.prt.chains ∧ (s.releaseGroup g b).prt.auctions = s.prt.auctions := by
  cases b <;> exact ⟨rfl, rfl⟩

end

theorem Body.isDiscard_of_isGroup {b : Body} (h : b.isGroup = true) : b.isDiscard = false := by
  cases b <;> simp_all [Body.isGroup, Body.kindRank, Body.isDiscard]

theorem Body.isReset_iff (b : Body) : b.isReset = true ↔ ∃ a, b = .abandon a ∧ a.cause = .reset := by
  cases b <;> simp [Body.isReset]

/-- A group not in CALL is left by its tag as it is. -/
theorem State.callCounted_group_of_phase {s t : State} {g : Fin 64} {x : Group} (h : s.callCounted t g.val)
    (hx : s.group g = x) (hp : x.phase ≠ .call) : t.group g = x := by
  rw [State.callCounted_group h, hx, Group.counted, if_neg hp]

/-- The first part of O35. -/
theorem releaseOfGroupedRecord (s : State) (e : Internal) (rest : List Internal) (g : Fin 64)
    (hs : s.releases .internal) (hagenda : s.sqm.agenda = e :: rest) (hg : e.group = g.val)
    (hgroup : e.body.isGroup = true) (hwindow : e.body.isWindow = false) :
    let x := s.group g
    ∃ (t : State) (r : Record), exec .release s = .next t
      ∧ t.pst.records = s.pst.records ++ [r] ∧ t.sqm.agenda = rest ∧ t.sqm.tie = s.sqm.tie
      ∧ r.seq = s.sqm.next ∧ r.stamp = e.stamp ∧ r.cls = e.cls ∧ r.source = 5 ∧ r.group = g.val
      ∧ r.late = e.late ∧ r.steppedOver = e.steppedOver ∧ r.coalesced = e.coalesced ∧ r.count = e.count
      ∧ (∀ b, e.body = .schedule b →
          t.group g = { x with phase := if b.disarm then .idle else .armed } ∧ r.tag = .opened
            ∧ r.body = e.body)
      ∧ (∀ late, e.body = .phase late →
          t.group g = { x with phase := .call, callCount := 1 } ∧ r.tag = .call ∧ r.body = e.body)
      ∧ (∀ drawn a b c, e.body = .close drawn a b c →
          t.group g = { x with phase := .closed, drawn := none } ∧ r.tag = .closed
            ∧ t.prt.notice.getLsbD 12 = true
            ∧ r.body = .close drawn x.callCount x.used
                (if s.sqm.next = s.sqm.first then 0 else s.sqm.next - 1))
      ∧ (∀ a, e.body = .abandon a → t.group g = Group.powerOn ∧ r.tag = .opened ∧ r.body = e.body
          ∧ (a.cause = .reset → s.prt.auctions = .waitAbandon →
              let more : Prop := ∃ w ∈ rest, ∃ b, w.body = .abandon b ∧ b.cause = .reset
              (more → t.prt.auctions = .waitAbandon)
                ∧ (¬ more → t.prt.auctions = .idle ∧ t.prt.notice.getLsbD 14 = true)))
      ∧ ((∀ a, e.body = .abandon a → a.cause ≠ .reset) → t.prt.auctions = s.prt.auctions)
      ∧ t.prt.chains = s.prt.chains
      ∧ ∀ g' : Fin 64, g' ≠ g → t.group g' = s.group g' := by
  intro x
  let u : State := { s with tb := (s.releaseReading .internal).tb, du := (s.releaseReading .internal).du }
  let z := u.withoutHead rest
  let w := z.releaseGroup g e.body
  let body := z.filledBody e s.sqm.next
  let t := s.internalReleased e rest
  have hbody : (u.withoutHead rest).internalBody e u.sqm.next = (w, body) :=
    State.internalBody_of_group z s.sqm.next hg hgroup hwindow
  have hexec : exec .release s = .next t := by
    refine (exec_release_internal hs hagenda).trans ?_
    rw [if_neg (by simp [hwindow])]
  have hzprt : z.prt = s.prt := by simp [z, State.withoutHead, u]
  have hzgroup (k : Fin 64) : z.group k = s.group k := by simp [z, State.withoutHead, u, State.group]
  have hzagenda : z.sqm.agenda = rest := rfl
  have hwsqm : w.sqm = z.sqm := by simp [w]
  obtain ⟨hwchains, hwauctions⟩ := z.releaseGroup_scopes g e.body
  have hcount : w.callCounted t g.val := hg ▸ State.releaseInternal_callCounted hbody
  have hsqm : t.sqm = { w.sqm with tie := s.sqm.tie } := State.releaseInternal_sqm hbody
  obtain ⟨hchains, hauctions, hannounce⟩ := State.releaseInternal_scopes hbody
  have hnotices : w.KeepsNotices t := by exact ⟨(State.releaseInternal_keepsNotices hbody).notice⟩
  have htag (p : Group) (hp : w.group g = p) : w.tagOf e.group = p.phase.tag := by
    rw [hg, w.tagOf_group, hp]
  have hreset : w.completesAuctions e.body = true ↔ (∃ a, e.body = .abandon a ∧ a.cause = .reset)
      ∧ s.prt.auctions = .waitAbandon ∧ ¬ ∃ w ∈ rest, ∃ b, w.body = .abandon b ∧ b.cause = .reset := by
    rw [State.completesAuctions, hwauctions, hwsqm, hzprt, hzagenda]
    simp [Body.isReset_iff, and_assoc]
  refine ⟨t, e.record s.sqm.next (w.tagOf e.group) body, hexec, congrArg PST.records (State.releaseInternal_pst hbody), ?_, ?_,
    rfl, rfl, rfl, rfl, hg, rfl, rfl, rfl, rfl, fun b hb => ?_, fun late hb => ?_, fun drawn a b c hb => ?_, fun a hb => ?_,
    fun hb => ?_, ?_, fun k hk => ?_⟩
  · rw [hsqm, hwsqm]
    rfl
  · rw [hsqm]
  · have hw : w.group g = { x with phase := if b.disarm then .idle else .armed } := by
      simp only [w, hb, State.releaseGroup, State.setGroup_group, hzgroup]
      rfl
    refine ⟨State.callCounted_group_of_phase hcount hw ?_, (htag _ hw).trans ?_, ?_⟩
    · cases b.disarm <;> simp
    · cases b.disarm <;> rfl
    · simp only [Internal.record, body, State.filledBody, hb]
  · have hw : w.group g = { x with phase := .call, callCount := 0 } := by
      simp only [w, hb, State.releaseGroup, State.setGroup_group, hzgroup]
      rfl
    refine ⟨?_, htag _ hw, ?_⟩
    · rw [State.callCounted_group hcount, hw]
      rfl
    · simp only [Internal.record, body, State.filledBody, hb]
  · have hw : w.group g = { x with phase := .closed, drawn := none } := by
      have hset : w.group g = { z.group g with phase := .closed, drawn := none } := by
        simp only [w, hb, State.releaseGroup]
        exact State.setGroup_group z g _
      rw [hset, hzgroup]
    refine ⟨State.callCounted_group_of_phase hcount hw (by simp), htag _ hw, hnotices.notice 12 ?_, ?_⟩
    · simp only [w, hb, State.releaseGroup]
      exact State.notifyIf_notice (b := true) (c := .auctionClose) rfl
    · simp only [Internal.record, body, State.filledBody, hb, State.fillClose, groupOf_eq hg.symm, hzgroup]
      rw [show z.sqm.first = s.sqm.first by simp [z, State.withoutHead, u, State.useNumber_first]]
  · have hw : w.group g = Group.powerOn := by
      simp only [w, hb, State.releaseGroup, State.setGroup_group]
    refine ⟨State.callCounted_group_of_phase hcount hw (by decide), htag _ hw, ?_, fun hc hwait => ?_⟩
    · simp only [Internal.record, body, State.filledBody, hb]
    · intro more
      refine ⟨fun hm => hauctions.trans ?_, fun hm => ?_⟩
      · rw [if_neg fun h => (hreset.1 h).2.2 hm, hwauctions, hzprt, hwait]
      · have hdone := hreset.2 ⟨⟨a, hb, hc⟩, hwait, hm⟩
        exact ⟨hauctions.trans (if_pos hdone), hannounce (.inr hdone)⟩
  · refine hauctions.trans ?_
    rw [if_neg fun h => let ⟨a, ha, hc⟩ := (hreset.1 h).1; hb a ha hc, hwauctions, hzprt]
  · refine hchains.trans ?_
    rw [if_neg (by simp [State.completesChains, Body.isDiscard_of_isGroup hgroup]), hwchains, hzprt]
  · rw [State.callCounted_group_ne hcount (fun h => hk (Fin.ext h)), z.releaseGroup_group_ne g e.body hk]
    exact hzgroup k

/-- Settles O35: group records, and records without a group. -/
theorem releaseOfGroupRecord : Obligations.ReleaseOfGroupRecord := ⟨releaseOfGroupedRecord, releaseOfUngroupedRecord⟩

/-! ## WINDOW (R104, R106) -/

/-- The drawn close lies at or before the limit of a step or set that passed it over (R114). -/
def Group.drawnStepped (x : Group) (drawn : Stamp) : Bool :=
  match x.passedOver with | some limit => drawn.ble limit | none => false

/-- The drawn close lies at or before now, or such a limit (R106). -/
def State.drawnPast (s : State) (g : Fin 64) (drawn : Stamp) : Bool := (s.group g).drawnStepped drawn || drawn.ble s.now

section
variable (s : State) (g : Fin 64) (epoch : Nat)

/-- The close that the release of a WINDOW draws. -/
def State.nextDrawn : Stamp := (s.group g).drawnClose (genDraw s.atu.generator) epoch

/-- The part after the draw, the close not yet run out. -/
def State.windowDrawn : State :=
  State.setGroup { s with atu := { s.atu with generator := genDraw s.atu.generator } } g { s.group g with
    phase := .closing, drawn := some (s.nextDrawn g epoch), closeTimer := !s.drawnPast g (s.nextDrawn g epoch) }

theorem State.drawWindow_eq : s.drawWindow g epoch =
    (if s.drawnPast g (s.nextDrawn g epoch) then (s.windowDrawn g epoch).createClose g (s.nextDrawn g epoch) s.du.cls
        ((s.group g).drawnStepped (s.nextDrawn g epoch)) else s.windowDrawn g epoch,
      .window (genDraw s.atu.generator).toNat (drawOffset (genDraw s.atu.generator) (s.group g).w)
        (some (s.nextDrawn g epoch))) := rfl

theorem State.drawWindow_atu : (s.drawWindow g epoch).1.atu = (s.windowDrawn g epoch).atu := by
  rw [State.drawWindow_eq]
  dsimp only
  split <;> rfl

end

/-- Settles O36: the draw, and the CLOSE that it may create. -/
theorem releaseOfWindow : Obligations.ReleaseOfWindow := by
  intro s e rest g a b d hs hagenda hg hb x value offset drawn stepped v past
  let u : State := { s with tb := v.tb, du := v.du }
  let z := u.withoutHead rest
  let w := (z.drawWindow g e.stamp.epoch).1
  let t := s.internalReleased e rest
  have hwindow : e.body.isWindow = true := by rw [hb]; rfl
  have hz : z.atu = s.atu ∧ z.group g = x := ⟨by simp [z, State.withoutHead, u], by simp [z, State.withoutHead, u, State.group, x]⟩
  have hnext : z.nextDrawn g e.stamp.epoch = drawn := by
    rw [State.nextDrawn, hz.1, hz.2]
    rfl
  have hstepped : (z.group g).drawnStepped drawn = stepped := congrArg (fun y : Group => y.drawnStepped drawn) hz.2
  have hpast : z.drawnPast g drawn = past := by
    rw [State.drawnPast, hstepped, show z.now = v.now by simp [State.now, z, State.withoutHead, u]]
  have hbody : (u.withoutHead rest).internalBody e u.sqm.next = (w, .window value.toNat offset (some drawn)) := by
    simp only [State.internalBody, hb, groupOf_eq hg.symm]
    refine Prod.ext rfl ?_
    rw [show State.drawWindow (u.withoutHead rest) g e.stamp.epoch = _ from z.drawWindow_eq g e.stamp.epoch]
    dsimp only
    rw [hnext, hz.1, hz.2]
    rfl
  have hexec : exec .release s = .next (t.reading.promise .time) := by
    refine (exec_release_internal hs hagenda).trans ?_
    rw [if_pos hwindow]
  have hcount : w.callCounted t g.val := hg ▸ State.releaseInternal_callCounted hbody
  have hsqm : t.sqm = { w.sqm with tie := s.sqm.tie } := State.releaseInternal_sqm hbody
  have hgroups (k : Fin 64) : w.group k = (z.windowDrawn g e.stamp.epoch).group k :=
    congrArg (fun q : ATU => q.groups.get k) (z.drawWindow_atu g e.stamp.epoch)
  have hwg : w.group g = { x with phase := .closing, drawn := some drawn, closeTimer := !past } := by
    rw [hgroups, State.windowDrawn, State.setGroup_group, hnext, hpast, hz.2]
  refine ⟨drawOffset_le value x.w, fun h => State.releaseReading_of_rest h _, t,
    e.record s.sqm.next (w.tagOf e.group) (.window value.toNat offset (some drawn)), hexec, ?_,
    congrArg PST.records (State.releaseInternal_pst hbody), rfl, rfl, ?_,
    State.callCounted_group_of_phase hcount hwg (by simp), fun hp => ?_, fun hp => ?_, fun k hk => ?_⟩
  · refine hcount.2.2.trans ((congrArg ATU.generator (z.drawWindow_atu g e.stamp.epoch)).trans ?_)
    exact congrArg (fun q : ATU => genDraw q.generator) hz.1
  · refine (congrArg w.tagOf hg).trans ?_
    rw [w.tagOf_group, hwg]
    rfl
  · have hw : w = z.windowDrawn g e.stamp.epoch := by
      simp only [w, State.drawWindow_eq, hnext, hpast, hp, Bool.false_eq_true, if_false]
    rw [hsqm, hw]
    rfl
  · have hw : w = (z.windowDrawn g e.stamp.epoch).createClose g drawn z.du.cls stepped := by
      simp only [w, State.drawWindow_eq, hnext, hpast, hp, if_true, hstepped]
    have hmem := ((z.windowDrawn g e.stamp.epoch).mem_create_of_isGroup drawn z.du.cls g.val false stepped
      (body := .close drawn 0 0 0) rfl _).2 (.inl rfl)
    have hagenda : t.sqm.agenda = w.sqm.agenda := by rw [hsqm]
    rw [show (z.windowDrawn g e.stamp.epoch).create .. = w from hw.symm, ← hagenda] at hmem
    exact ⟨_, hmem, rfl, by simp [z, State.withoutHead, u], rfl, rfl, rfl⟩
  · rw [State.callCounted_group_ne hcount (fun h => hk (Fin.ext h)), hgroups, State.windowDrawn, State.setGroup_group_ne _ _ hk]
    simp [z, State.withoutHead, u, State.group]

/-! ## ATTEST (R123 to R130) -/

/-- With no ATTEST waiting, the record of a boundary joins the agenda. -/
theorem State.emitBoundary_holds {s v : State} (h : ∀ e ∈ s.sqm.agenda, ∀ a, e.body ≠ .attest a) :
    (s.emitBoundary v).holds ⟨s.tb.epoch, s.att.nextBoundary, 0⟩ v.du.cls
      (.attest (s.snapshot v ⟨s.tb.epoch, s.att.nextBoundary, 0⟩)) := by
  let entry : Internal := ⟨⟨s.tb.epoch, s.att.nextBoundary, 0⟩, v.du.cls, 255, false, false, false, 1, s.sqm.created,
    .attest (s.snapshot v ⟨s.tb.epoch, s.att.nextBoundary, 0⟩)⟩
  have hmem : entry ∈ arrive entry s.sqm.agenda := by
    rcases arrive_cases entry s.sqm.agenda with ⟨-, harrive⟩ | ⟨⟨w, hw, hclass⟩, -⟩
    · rw [harrive]
      exact mem_insertAgenda.mpr (.inl rfl)
    · have hattest := h w hw
      cases hb : w.body <;> simp_all [Body.sameClass, entry]
  exact ⟨entry, hmem, rfl, rfl, rfl, rfl⟩

theorem exec_attestBoundary {s : State} (hr : s.ready) (hb : s.boundaryDue = true) :
    exec .attestBoundary s = .next ((s.emitBoundary s.left).promise .values) :=
  (ticked_of_ready hr _).trans (congrArg Host.Outcome.next (if_pos hb))

/-- Settles O37: the snapshot and the restart of the period, and the fill of a released ATTEST. -/
theorem attestation : Obligations.Attestation := by
  refine ⟨fun s hr hb hnone => ?_, fun s e rest a hs hagenda hb hg => ?_⟩
  · intro b v end_
    refine ⟨s.emitBoundary v, s.snapshot v b, exec_attestBoundary hr hb, State.emitBoundary_holds hnone, rfl, rfl, rfl, rfl, rfl,
      rfl, rfl, rfl, rfl, rfl, rfl, rfl, rfl, rfl, rfl, rfl, rfl, rfl, ⟨rfl, rfl⟩, fun l => ⟨?_, ?_⟩, ?_, rfl⟩
    · exact Quad.get_zip ..
    · exact Quad.get_map ..
    · have hend : nextBoundary s.att.nextBoundary s.att.period = end_ := by
        simp only [nextBoundary, Config.secondsWrap, end_]
        split <;> split <;> omega
      rw [← hend]
      rfl
  · let u : State := { s with tb := (s.releaseReading .internal).tb, du := (s.releaseReading .internal).du }
    let z := u.withoutHead rest
    have hz : z.att = s.att ∧ z.sqm.first = s.sqm.first ∧ z.atu = s.atu := by
      simp [z, State.withoutHead, u, State.useNumber_first]
    have hbody : z.internalBody e u.sqm.next = z.fillAttest a s.sqm.next := State.internalBody_of_attest z _ hb
    have hexec := exec_release_internal hs hagenda
    rw [if_neg (by simp [hb, Body.isWindow])] at hexec
    refine ⟨_, _, hexec, congrArg PST.records (State.releaseInternal_pst hbody), ?_, rfl, State.tagOf_ungrouped _ hg, ?_,
      (State.releaseInternal_att hbody).trans ?_, (State.releaseInternal_atu_of_ungrouped hbody hg).trans hz.2.2⟩
    · exact (congrArg SQM.agenda (State.releaseInternal_sqm hbody)).trans rfl
    · show Body.attest _ = _
      rw [hz.1, hz.2.1]
    · show ({ z.att with rangeStart := _ } : ATT) = _
      rw [hz.1]
      have hrange : (if s.sqm.next ≥ Config.seqMax then none else some (s.sqm.next + 1))
          = if s.sqm.next < 18446744073709551615 then some (s.sqm.next + 1) else none := by
        by_cases hlast : s.sqm.next < 18446744073709551615
        · rw [if_pos hlast, if_neg (Nat.not_le.2 hlast)]
        · rw [if_neg hlast, if_pos (Nat.not_lt.1 hlast)]
      rw [← hrange]

end Sys2Proof.Machine
end

section
/-! Flow states, and what every change of the pending fill does (O29). -/

namespace Sys2Proof.Machine

open Sys2Proof

/-! ## One evaluation (R63, R64) -/

theorem Line.nextHold_eq (l : Line) (fill high low : Nat) : l.nextHold fill high low =
    if l.hold then !(decide (fill ≤ low) && decide (l.fifo.length ≤ 8))
    else decide (high ≤ fill) || decide (24 ≤ l.fifo.length) := by
  unfold Line.nextHold
  cases l.hold <;> rfl

/-- A changed flow state on a link that is UP has its symbol due. -/
theorem Line.evalFlow_flowDue (l : Line) (fill high low : Nat) : (l.evalFlow fill high low).flowDue = true ↔
    l.flowDue = true ∨ (l.up = true ∧ (l.evalFlow fill high low).hold ≠ l.hold) := by
  simp [Line.evalFlow]

/-! ## A change of the pending fill (R161, R162) -/

/-- From `s` to `t` a change of the pending fill has each flow state evaluated, and PENDING_HIGH set where the fill
passed the high mark. -/
structure State.FlowsTo (s t : State) : Prop where
  lines : t.pst.records.length ≠ s.pst.records.length → ∀ l : Fin 4,
    (t.line l).hold = (if (s.line l).hold then
        !(decide (t.pst.records.length ≤ t.pst.params.low) && decide ((t.line l).fifo.length ≤ 8))
      else decide (t.pst.params.high ≤ t.pst.records.length) || decide (24 ≤ (t.line l).fifo.length))
    ∧ ((t.line l).up = true → (t.line l).hold ≠ (s.line l).hold → (t.line l).flowDue = true)
  high : t.pst.records.length ≠ s.pst.records.length → s.pst.records.length < s.pst.params.high →
    s.pst.params.high ≤ t.pst.records.length → t.prt.notice.getLsbD 10 = true

theorem State.FlowsTo.of_records {s t : State} (h : t.pst.records = s.pst.records) : s.FlowsTo t :=
  ⟨fun hne => absurd (by rw [h]) hne, fun hne => absurd (by rw [h]) hne⟩

/-- From `s` to `t` each line keeps its flow state. -/
structure State.KeepsFlow (s t : State) : Prop where
  hold : ∀ l : Fin 4, (t.line l).hold = (s.line l).hold
  records : t.pst.records = s.pst.records
  params : t.pst.params = s.pst.params

theorem State.KeepsFlow.trans {s t u : State} (h : s.KeepsFlow t) (k : t.KeepsFlow u) : s.KeepsFlow u :=
  ⟨fun l => (k.hold l).trans (h.hold l), k.records.trans h.records, k.params.trans h.params⟩

theorem State.KeepsFlow.of_same {s t : State} (hl : t.lines = s.lines) (hp : t.pst = s.pst) : s.KeepsFlow t :=
  ⟨fun l => by rw [State.line, hl]; rfl, by rw [hp], by rw [hp]⟩

/-- From `s` to `t` each line keeps, besides, what its evaluation read and left, and causes stay set. -/
structure State.KeepsEval (s t : State) : Prop extends s.KeepsFlow t, s.KeepsNotices t where
  fifo : ∀ l : Fin 4, (t.line l).fifo = (s.line l).fifo
  up : ∀ l : Fin 4, (t.line l).up = (s.line l).up
  flowDue : ∀ l : Fin 4, (s.line l).flowDue = true → (t.line l).flowDue = true

theorem State.KeepsEval.of_same {s t : State} (hl : t.lines = s.lines) (hr : t.pst.records = s.pst.records)
    (hp : t.pst.params = s.pst.params) (hn : s.KeepsNotices t) : s.KeepsEval t := by
  have hline (l : Fin 4) : t.line l = s.line l := by rw [State.line, hl]; rfl
  exact ⟨⟨fun l => by rw [hline], hr, hp⟩, hn, fun l => by rw [hline], fun l => by rw [hline], fun l => by rw [hline]; exact id⟩

theorem State.KeepsEval.trans {s t u : State} (h : s.KeepsEval t) (k : t.KeepsEval u) : s.KeepsEval u where
  toKeepsFlow := h.toKeepsFlow.trans k.toKeepsFlow
  toKeepsNotices := h.toKeepsNotices.trans k.toKeepsNotices
  fifo l := (k.fifo l).trans (h.fifo l)
  up l := (k.up l).trans (h.up l)
  flowDue l := k.flowDue l ∘ h.flowDue l

/-- What follows the evaluation keeps it. -/
theorem State.FlowsTo.thenKeep {s t u : State} (h : s.FlowsTo t) (k : t.KeepsEval u) : s.FlowsTo u := by
  obtain ⟨⟨hhold, hrecords, hparams⟩, hnotice, hfifo, hup, hdue⟩ := k
  refine ⟨fun hne l => ?_, fun hne h1 h2 => ?_⟩
  · rw [hrecords] at hne
    obtain ⟨h1, h2⟩ := h.lines hne l
    rw [hhold, hfifo, hup, hrecords, hparams]
    exact ⟨h1, fun hu hc => hdue l (h2 hu hc)⟩
  · rw [hrecords] at hne h2
    exact hnotice.notice 10 (h.high hne h1 h2)

/-- The evaluation, after what keeps the flow states. -/
theorem State.FlowsTo.of_setRecords {s u : State} (h : s.KeepsFlow u) (rs : List Record) : s.FlowsTo (u.setRecords rs) := by
  have hp := congrArg State.pst (u.setRecords_frame rs)
  refine ⟨fun _ l => ?_, fun _ h1 h2 => ?_⟩
  · rw [State.setRecords_line, hp]
    dsimp only
    refine ⟨?_, fun hu hc => (Line.evalFlow_flowDue ..).2 (.inr ⟨hu, by rwa [h.hold]⟩)⟩
    rw [← h.hold l]
    exact Line.nextHold_eq ..
  · rw [hp] at h2
    rw [← h.params, ← h.records] at h1
    rw [← h.params] at h2
    exact State.notifyIf_notice (c := .pendingHigh) (by simpa using ⟨h1, h2⟩)

/-! ## Commands that keep the pending fill -/

@[simp] theorem State.post_records (s : State) (ws : List HostWrite) : (s.post ws).pst.records = s.pst.records := by simp

@[simp] theorem State.closeBlock_records (s : State) (b : OpenBlock) (c : CloseCause) :
    (s.closeBlock b c).pst.records = s.pst.records ∧ (s.closeBlock b c).pst.params = s.pst.params := by
  simp [State.closeBlock]

@[simp] theorem State.placeRecord_records (s : State) (b : OpenBlock) (r : Record) :
    (s.placeRecord b r).pst.records = s.pst.records := by
  unfold State.placeRecord
  dsimp only
  split <;> simp

@[simp] theorem State.flush_records (s : State) : s.flush.pst.records = s.pst.records := by
  unfold State.flush
  split
  · split <;> simp
  · rfl

theorem State.writeFault_params (s : State) (c : Chain) : (s.writeFault c).pst.params = s.pst.params := by
  cases c
  · simp [State.writeFault]
  · simp [State.writeFault]
  · unfold State.writeFault
    dsimp only
    split <;> simp

theorem State.failWrites_params (s : State) : s.failWrites.pst.params = s.pst.params := by
  have hfold (l : List Chain) (t : State) : (l.foldl (fun s c =>
      if s.posted.any (fun w => w.chain == c) then s.writeFault c else s) t).pst.params = t.pst.params := by
    induction l generalizing t with
    | nil => rfl
    | cons c l ih =>
      refine (ih _).trans ?_
      dsimp only
      split
      · exact t.writeFault_params c
      · rfl
  unfold State.failWrites
  split
  · exact hfold _ s
  · rfl

theorem State.busCheck_keepsEval (old s : State) : s.KeepsEval (old.busCheck s) :=
  .of_same (by simp) (by simp) (by simp [State.busCheck, State.failWrites_params]) (State.busCheck_keepsNotices old s)

@[simp] theorem ite_records (c : Prop) [Decidable c] (s t : State) :
    (if c then s else t).pst.records = if c then s.pst.records else t.pst.records := by
  split <;> rfl

@[simp] theorem State.closePeriod_records (s : State) : s.closePeriod.pst.records = s.pst.records := by
  simp [State.closePeriod]

@[simp] theorem State.nextPeriod_records (s : State) : s.nextPeriod.pst.records = s.pst.records := by
  simp [State.nextPeriod, State.advance]

section
variable (s : State) (c : Chain)

@[simp] theorem State.startChain_records : (s.startChain c).pst.records = s.pst.records := by
  unfold State.startChain
  dsimp only
  (repeat' split) <;> simp

@[simp] theorem State.resumeChain_records : (s.resumeChain c).pst.records = s.pst.records := by
  unfold State.resumeChain
  dsimp only
  split <;> simp

@[simp] theorem State.forgetLeave_records : (s.forgetLeave c).pst.records = s.pst.records := rfl

@[simp] theorem State.stopChain_records : (s.stopChain c).pst.records = s.pst.records := by
  cases c
  · simp only [State.stopChain, State.stopControl, State.stopWalking]
    (repeat' split) <;> simp
  · simp only [State.stopChain, State.stopEvent, State.stopWalk]
    (repeat' split) <;> simp
  · simp only [State.stopChain, State.stopCapture, State.stoppingCapture]
    (repeat' split) <;> simp

theorem State.command_records {k : State → State} (hk : (k s).pst.records = s.pst.records) :
    (s.command c k).pst.records = s.pst.records := by
  unfold State.command
  split
  · simp
  · exact hk

@[simp] theorem State.enterHeader_records (h : BlockHeader) : (s.enterHeader c h).pst.records = s.pst.records := by
  cases c <;> simp only [State.enterHeader] <;> (repeat' split) <;>
    simp [State.takeControlBlock, State.takeEventBlock, State.openCapture, State.badCapture, State.badRequest]

@[simp] theorem State.leaveFinished_records : (s.leaveFinished c).pst.records = s.pst.records := by
  unfold State.leaveFinished
  generalize (s.ctx c).walk = w
  cases (s.ctx c).state with
  | active => cases w with
    | finishing a => cases a <;> simp
    | _ => rfl
  | _ => rfl

end

@[simp] theorem State.controlHead_records (s : State) (off : Nat) (h : SlotHead) :
    (s.controlHead off h).pst.records = s.pst.records := by
  unfold State.controlHead State.malformedControl
  (repeat' split) <;> simp

@[simp] theorem State.eventHead_records (s : State) (off : Nat) (h : SlotHead) :
    (s.eventHead off h).pst.records = s.pst.records := by
  unfold State.eventHead State.malformedEvent
  (repeat' split) <;> simp

@[simp] theorem State.completeWriteBack_records (s : State) (wb : WriteBack) (rest : List WriteBack) :
    (s.completeWriteBack wb rest).pst.records = s.pst.records := by
  unfold State.completeWriteBack
  dsimp only
  split <;> simp

@[simp] theorem State.takeEvent_records (s : State) (off : Nat) (h : SlotHead) (e : EngineEntry) :
    (s.takeEvent off h e).pst.records = s.pst.records := by
  simp [State.takeEvent]

@[simp] theorem State.answer_pst (block : BitVec 64) (off : Nat) (h : SlotHead) (body : Nat) (a : Answer) :
    (State.answer block off h body a).pst = a.state.pst := by
  simp [State.answer]

@[simp] theorem State.startFrame_records (s : State) (l : Fin 4) : (s.startFrame l).pst.records = s.pst.records := by
  simp [State.startFrame]

@[simp] theorem State.endFrame_records (s : State) (l : Fin 4) (mark : FrameMark) (data : List Byte) (bad : Bool)
    (how : FrameEnd) : (s.endFrame l mark data bad how).pst.records = s.pst.records := by
  unfold State.endFrame
  dsimp only
  split <;> simp

@[simp] theorem State.resetLines_records (s : State) : s.resetLines.pst.records = s.pst.records := by
  simp [State.resetLines, State.notifyLinks]

@[simp] theorem State.auctionsEffect_records (s : State) : s.auctionsEffect.pst.records = s.pst.records := by
  simp [State.auctionsEffect]

/-! ## Owners that keep PST -/

section
variable (s : State)

theorem State.setTime_records (t : HostTime) : ((s.atSetTime t).setTime t).state.pst.records = s.pst.records := by
  unfold State.setTime
  split <;> simp [State.atSetTime, State.setTimeTo]

theorem State.setSteering_records (p k policy : Byte) (limit threshold : BitVec 32) :
    (s.setSteering p k policy limit threshold).state.pst.records = s.pst.records := by
  unfold State.setSteering
  split <;> simp [State.steer]

theorem State.setTraceLimits_records (divergence floor rate : BitVec 32) :
    (s.setTraceLimits divergence floor rate).state.pst.records = s.pst.records := by
  unfold State.setTraceLimits
  split <;> simp [State.limitTrace]

theorem State.setAdmission_records (index : Byte) (opened : Bool) : (s.setAdmission index opened).state.pst.records = s.pst.records := by
  unfold State.setAdmission
  split <;> simp

theorem State.setLineParams_records (index a b : Byte) : (s.setLineParams index a b).state.pst.records = s.pst.records := by
  unfold State.setLineParams
  split <;> simp

theorem State.arm_records (group m : Byte) (w x : BitVec 32) (callOpen close : HostTime) :
    (s.arm group m w x callOpen close).state.pst.records = s.pst.records := by
  unfold State.arm State.armNow
  dsimp only
  (repeat' split) <;> simp [State.armGroup, armRefused]

theorem State.disarm_records (group : Byte) : (s.disarm group).state.pst.records = s.pst.records := by
  unfold State.disarm State.disarmNow
  (repeat' split) <;> simp [State.disarmGroup]

theorem State.setAlarmEntry_records (index : Byte) (period : BitVec 32) (first : HostTime) :
    (s.setAlarmEntry index period first).state.pst.records = s.pst.records := by
  unfold State.setAlarmEntry
  dsimp only
  (repeat' split) <;> simp [State.armAlarm]

theorem State.cancelAlarm_records (index : Byte) : (s.cancelAlarm index).state.pst.records = s.pst.records := by
  unfold State.cancelAlarm
  dsimp only
  (repeat' split) <;> simp

theorem State.setEvidence_records (period : Byte) (chk0 chk1 : CheckParams) :
    (s.setEvidence period chk0 chk1).state.pst.records = s.pst.records := by
  unfold State.setEvidence
  dsimp only
  (repeat' split) <;> simp [State.configureEvidence]

theorem State.setCapture_records (flush : BitVec 32) (high low push : BitVec 16) (notifyAll : Byte) :
    (s.setCapture flush high low push notifyAll).state.pst.records = s.pst.records := by
  unfold State.setCapture
  split <;> simp [State.configureCapture]

end

/-! ## Outcomes -/

/-- The outcome is a next state to which `FlowsTo` leads. -/
def leavesFlows (s : State) (o : Host.Outcome State Fault Refusal) : Prop := ∀ t : State, o = .next t → s.FlowsTo t

theorem leavesFlows_next {s t : State} (h : s.FlowsTo t) : leavesFlows s (.next t) := by
  rintro _ ⟨⟩
  exact h

theorem leavesFlows_gated {s t : State} {c : Bool} (h : s.FlowsTo t) : leavesFlows s (.next (if c then t else s)) := by
  refine leavesFlows_next ?_
  split
  · exact h
  · exact .of_records rfl

section
variable {s : State} {k : State → State} (hr : s.ready) (hk : s.FlowsTo (k s))
include hr hk

theorem ticked_flows : leavesFlows s (ticked s k) := by
  rw [ticked_of_ready hr]
  exact leavesFlows_next hk

theorem tickedIO_flows : leavesFlows s (tickedIO s k) := by
  rw [tickedIO_of_ready hr]
  exact leavesFlows_next (hk.thenKeep (State.busCheck_keepsEval ..))

theorem portedIO_flows : leavesFlows s (portedIO s k) := by
  rw [portedIO_of_ready hr]
  exact leavesFlows_next (hk.thenKeep (State.busCheck_keepsEval ..))

theorem windowed_flows : leavesFlows s (windowed s k) := by
  unfold windowed
  rw [State.act_eq hr.2.2]
  exact leavesFlows_gated hk

theorem linked_flows : leavesFlows s (linked s k) := by
  unfold linked
  rw [State.act_eq hr.2.2]
  exact leavesFlows_gated hk

theorem windowedIO_flows : leavesFlows s (windowedIO s k) := by
  unfold windowedIO
  rw [State.actIO_eq hr.2.2]
  exact leavesFlows_gated (hk.thenKeep (State.busCheck_keepsEval ..))

end

/-- The take of a control slot: what its owner does decides. -/
theorem takeControl_flows {s : State} (hr : s.ready) (code body : Nat) {owner : State → Answer}
    (ho : s.FlowsTo (owner s).state) :
    leavesFlows s (takeControl s code body owner) := by
  refine tickedIO_flows hr ?_
  split
  · refine ho.thenKeep (.of_same (by simp [State.answer]) (by simp) (by simp) (.of_prt (by simp [State.answer])))
  · exact .of_records rfl

theorem takeEngine_flows {s : State} (hr : s.ready) (code : Nat) (kind : EngineKind) (group : Byte) (payload : List Byte)
    (ok : SlotHead → Bool) : leavesFlows s (takeEngine s code kind group payload ok) := by
  refine tickedIO_flows hr (.of_records ?_)
  (repeat' split) <;> simp

/-! ## Commands that change the pending fill -/

/-- Every block at its power-on values: PST is empty, and every line is DOWN in GO. -/
theorem State.FlowsTo.of_powerOn {s t : State} (hl : t.lines = Quad.all Line.powerOn) (hp : t.pst = PST.powerOn) : s.FlowsTo t := by
  have hline (l : Fin 4) : t.line l = Line.powerOn := by
    rw [State.line, hl]
    fin_cases l <;> rfl
  refine ⟨fun _ l => ?_, fun _ h1 h2 => ?_⟩
  · rw [hline, hp]
    refine ⟨?_, fun hup => absurd hup (by decide)⟩
    cases (s.line l).hold <;> rfl
  · rw [hp] at h2
    exact absurd h1 (by rw [Nat.le_zero.1 h2]; exact Nat.not_lt_zero _)

/-! ## A release -/

theorem State.KeepsFlow.of_hold {s t : State} (hl : ∀ l, (t.line l).hold = (s.line l).hold) (hp : t.pst = s.pst) :
    s.KeepsFlow t := ⟨hl, by rw [hp], by rw [hp]⟩

theorem State.KeepsFlow.of_signals {s t : State} (h : s.Signals t) (hp : t.pst = s.pst) : s.KeepsFlow t :=
  .of_hold (fun l => by rw [h.lines l]) hp

theorem State.writeBack_keepsEval (s : State) (e : EngineEntry) (r : Record) : s.KeepsEval (s.writeBack e r) :=
  .of_same (by simp) (by simp) (by simp) (.of_prt (by simp))

theorem State.completeScopes_keepsEval (s : State) (b : Body) : s.KeepsEval (s.completeScopes b) :=
  .of_same (by simp) (by simp) (by simp) (s.completeScopes_keepsNotices b)

theorem State.reading_promise_keepsEval (s : State) (p : Promise) : s.KeepsEval (s.reading.promise p) :=
  .of_same (by simp) (by simp) (by simp) (.of_prt (by simp))

theorem State.append_flows {s u : State} (h : s.KeepsFlow u) (tie : Nat) (r : Record) : s.FlowsTo (u.append tie r) :=
  State.FlowsTo.of_setRecords (u := { u with sqm := { u.sqm with tie := tie } }) ⟨h.hold, h.records, h.params⟩ _

theorem State.respond_keepsEval (s : State) (l : Fin 4) (a : Response) :
    s.KeepsEval (s.setLine l ((s.line l).respond a)) := by
  have hline (k : Fin 4) : ∃ x : Line, (s.setLine l ((s.line l).respond a)).line k = x ∧ x.hold = (s.line k).hold
      ∧ x.fifo = (s.line k).fifo ∧ x.up = (s.line k).up ∧ x.flowDue = (s.line k).flowDue := by
    by_cases hk : k = l
    · subst hk
      exact ⟨_, s.setLine_line k _, rfl, rfl, rfl, rfl⟩
    · exact ⟨_, s.setLine_line_ne _ hk, rfl, rfl, rfl, rfl⟩
  choose x hx hhold hfifo hup hdue using hline
  exact ⟨⟨fun k => by rw [hx, hhold], rfl, rfl⟩, ⟨fun _ => id⟩, fun k => by rw [hx, hfifo], fun k => by rw [hx, hup],
    fun k h => by rw [hx, hdue]; exact h⟩

theorem State.releaseLine_flows (s : State) (l : Fin 4) (e : FifoEntry) (rest : List FifoEntry) :
    s.FlowsTo (s.releaseLine l e rest) := by
  unfold State.releaseLine
  dsimp only
  refine (State.append_flows ?_ _ _).thenKeep (State.respond_keepsEval ..)
  refine .of_hold (fun k => ?_) (by simp)
  have hp : (s.useNumber.phaseTag e.group).1.line k = s.line k := by simp [State.line]
  by_cases hk : k = l
  · subst hk
    rw [State.setLine_line, hp]
  · rw [State.setLine_line_ne _ _ hk, hp]

theorem State.releaseEngine_flows (s : State) (e : EngineEntry) (rest : List EngineEntry) :
    s.FlowsTo (s.releaseEngine e rest) := by
  unfold State.releaseEngine
  dsimp only
  refine .thenKeep ?_ (State.writeBack_keepsEval _ e _)
  exact State.append_flows (by exact .of_same (by simp) (by simp)) _ _

theorem State.releaseInternal_flows (s : State) (e : Internal) (rest : List Internal) :
    s.FlowsTo (s.releaseInternal e rest) := by
  unfold State.releaseInternal
  dsimp only
  refine .thenKeep ?_ (State.completeScopes_keepsEval _ _)
  exact State.append_flows (by exact .of_same (by simp) (by simp)) _ _

theorem State.releaseHead_flows (s : State) (src : Source) : s.FlowsTo (s.releaseHead src) := by
  cases src with
  | line l =>
    cases h : (s.line l).fifo with
    | nil => simpa only [State.releaseHead, h] using State.FlowsTo.of_records rfl
    | cons e rest => simpa only [State.releaseHead, h] using s.releaseLine_flows l e rest
  | engine =>
    cases h : s.evt.fifo with
    | nil => simpa only [State.releaseHead, h] using State.FlowsTo.of_records rfl
    | cons e rest => simpa only [State.releaseHead, h] using s.releaseEngine_flows e rest
  | internal =>
    cases h : s.sqm.agenda with
    | nil => simpa only [State.releaseHead, h] using State.FlowsTo.of_records rfl
    | cons e rest => simpa only [State.releaseHead, h] using s.releaseInternal_flows e rest

theorem State.releaseUnder_flows (s v : State) (src : Source) : s.FlowsTo (s.releaseUnder v src) := by
  have h := State.releaseHead_flows { s with tb := v.tb, du := v.du } src
  exact ⟨h.lines, h.high⟩

theorem State.releaseFrom_flows (s : State) (src : Source) : s.FlowsTo (s.releaseFrom src) := by
  unfold State.releaseFrom
  dsimp only
  split
  · exact (s.releaseUnder_flows _ src).thenKeep (State.reading_promise_keepsEval _ _)
  · exact s.releaseUnder_flows _ src

theorem State.release_flows (s : State) : s.FlowsTo s.release := by
  unfold State.release
  split
  · exact s.releaseFrom_flows _
  · exact .of_records rfl

/-- What comes first keeps the flow states. -/
theorem State.FlowsTo.after {s t u : State} (h : s.KeepsFlow t) (k : t.FlowsTo u) : s.FlowsTo u := by
  obtain ⟨hhold, hrecords, hparams⟩ := h
  refine ⟨fun hne l => ?_, fun hne h1 h2 => ?_⟩
  · rw [← hhold]
    exact k.lines (by rwa [hrecords]) l
  · exact k.high (by rwa [hrecords]) (by rwa [hrecords, hparams]) (by rwa [hparams])

theorem State.releaseNext_flows (s : State) : s.FlowsTo s.releaseNext := by
  have hb : s.KeepsFlow s.settleBoundary := by
    unfold State.settleBoundary
    split
    · exact State.KeepsFlow.trans (.of_signals (s.settleAdvance_signals s.done) (by simp)) (.of_same (by simp) (by simp))
    · exact .of_same rfl rfl
  have hw (t : State) : t.KeepsFlow t.settleWork := by
    unfold State.settleWork
    split
    · exact .of_signals t.done_signals (by simp)
    · exact .of_same rfl rfl
  exact .after (hb.trans (hw _)) (State.release_flows _)

/-! ## A new run, a capture block's DONE write, and the CHAINS scope -/

theorem State.KeepsEval.of_signals {s t : State} (h : s.Signals t) (hp : t.pst = s.pst) : s.KeepsEval t where
  toKeepsFlow := .of_signals h hp
  toKeepsNotices := h.keepsNotices
  fifo l := by rw [h.lines l]
  up l := by rw [h.lines l]
  flowDue l hl := by rw [h.lines l]; exact hl

theorem State.newRun_flows (s : State) (next run : Nat) : s.FlowsTo (s.newRun next run) := by
  unfold State.newRun
  refine .thenKeep ?_ (.of_signals (State.left_signals _) (by simp))
  exact .after (.of_same (by simp [State.createLeft]) (by simp [State.createLeft])) (State.releaseHead_flows _ _)

theorem State.setSequence_flows (s : State) (next : BitVec 64) (run : BitVec 32) : s.FlowsTo (s.setSequence next run).state := by
  unfold State.setSequence
  split
  · exact .of_records rfl
  · split
    · exact .of_records rfl
    · exact s.newRun_flows _ _

theorem State.chainsEffect_flows (s : State) : s.FlowsTo s.chainsEffect := by
  have hrest : s.KeepsFlow s.chainsAtRest.discardRecords := by
    have h : s.chainsAtRest.KeepsFlow s.chainsAtRest.discardRecords :=
      .of_signals s.discardRecords_signals (by unfold State.discardRecords; split <;> simp)
    exact ⟨h.hold, h.records, h.params⟩
  have hset := State.FlowsTo.of_setRecords hrest []
  rw [State.chainsEffect_eq]
  split
  · refine .thenKeep (t := { s.chainsAtRest.discardRecords.setRecords [] with
      prt := { (s.chainsAtRest.discardRecords.setRecords []).prt with chains := .idle } }) ⟨hset.lines, hset.high⟩ ?_
    exact .of_signals (State.notify_signals _ _) rfl
  · exact ⟨hset.lines, hset.high⟩

theorem State.startScope_flows (s : State) : s.FlowsTo s.startScope := by
  unfold State.startScope State.settleScope
  split
  · have h := State.chainsEffect_flows { s with prt := { s.prt with chains := .waitDone } }
    exact ⟨h.lines, h.high⟩
  · exact .of_records rfl

/-- No scope waits for its effect instant in a part with nothing left to do. -/
theorem State.takeScope_of_ready {s : State} (hr : s.ready) : s.takeScope = s := by
  obtain ⟨-, -, hq⟩ := hr
  have hstill := State.still_of_quiescent hq
  simp only [State.still, State.settled, Bool.and_eq_true, Bool.not_eq_true'] at hstill
  obtain ⟨⟨⟨⟨-, hscope⟩, -⟩, -⟩, -⟩ := hstill
  exact if_neg (by simp [hscope])

theorem State.leaveCapture_keepsEval (s : State) : s.KeepsEval s.leaveCapture :=
  .of_same (by simp) (by simp) (by simp) (.of_prt (by simp))

theorem execCaptureDoneComplete_flows {s : State} (hr : s.ready) : leavesFlows s (execCaptureDoneComplete s) := by
  refine portedIO_flows hr ?_
  split
  · split
    · refine State.FlowsTo.thenKeep ?_ (State.leaveCapture_keepsEval _)
      refine .thenKeep ?_ (State.KeepsEval.of_signals (State.notifyIf_signals ..) (by simp))
      exact State.FlowsTo.of_setRecords ⟨fun l => by simp [State.line], by simp, by simp⟩ _
    · exact .of_records rfl
  · exact .of_records rfl

/-! ## Every command -/

theorem execDmaWriteFailed_flows {s : State} (hr : s.ready) (f : FailedWrite) : leavesFlows s (execDmaWriteFailed f s) := by
  obtain ⟨-, -, hq⟩ := id hr
  have hstill := State.still_of_quiescent hq
  simp only [State.still, Bool.and_eq_true] at hstill
  refine leavesFlows_gated (.of_records ?_)
  rw [State.settleRest_eq hstill.1, State.keep_eq (State.owed_of_quiescent hq)]
  split <;> simp

/-- A change of the pending fill by any command. -/
theorem exec_flows (i : Instr) {s : State} (hr : s.ready) : leavesFlows s (exec i s) := by
  cases i with
  | powerOn => exact leavesFlows_next (.of_powerOn rfl rfl)
  | conventionalReset => exact leavesFlows_next (.of_powerOn rfl rfl)
  | supplyOutOfRange rail => cases rail <;> exact leavesFlows_next (.of_powerOn rfl rfl)
  | full => exact leavesFlows_gated (.of_powerOn rfl rfl)
  | oscillatorStop =>
    refine (show leavesFlows s (if _ then _ else _) from ?_)
    split
    · exact tickedIO_flows hr (.of_records (by simp))
    · exact leavesFlows_next (.of_records rfl)
  | oscillatorReturn => exact leavesFlows_next (.of_records rfl)
  | oscillatorPeriod => exact tickedIO_flows hr (.of_records s.closePeriod_records)
  | refSyncGained => exact ticked_flows hr (.of_records (by simp))
  | refSyncLost why => exact ticked_flows hr (.of_records (by simp))
  | refFrameEnd data how => exact ticked_flows hr (.of_records (by simp))
  | marker => exact ticked_flows hr (.of_records (by simp [State.latchMarker]))
  | missingMarkerExpiry => exact ticked_flows hr (.of_records (by simp))
  | actionInstant => exact ticked_flows hr (.of_records (by simp))
  | holdoverSecond => exact ticked_flows hr (.of_records (by simp))
  | linkUp l => exact ticked_flows hr (.of_records (by simp))
  | linkDown l why => exact ticked_flows hr (.of_records (by simp))
  | frameStart l => exact ticked_flows hr (.of_records (by simp))
  | frameEnd l data bad how => exact ticked_flows hr (.of_records (by split <;> simp))
  | responseSent l => exact ticked_flows hr (.of_records (by split <;> simp))
  | flowSymbolSent l => exact ticked_flows hr (.of_records (by simp))
  | release => exact tickedIO_flows hr s.releaseNext_flows
  | callOpenTimer g => exact leavesFlows_gated (.of_records (by simp))
  | closeWindowTimer g => exact leavesFlows_gated (.of_records (by simp))
  | closeTimer g => exact leavesFlows_gated (.of_records (by simp))
  | alarmTimer a => exact leavesFlows_gated (.of_records (by simp))
  | attestBoundary => exact ticked_flows hr (.of_records (by simp))
  | checkRisingTransition c => exact ticked_flows hr (.of_records (by simp [State.beginPulse]))
  | checkPulseDropped c => exact ticked_flows hr (.of_records (by split <;> simp))
  | checkEdgeRecognized c => exact ticked_flows hr (.of_records (by simp))
  | checkSecondJudged => exact ticked_flows hr (.of_records (by simp))
  | flushTimerExpiry => exact tickedIO_flows hr (.of_records (by simp))
  | blockHeaderRead c h => exact portedIO_flows hr (.of_records (by simp))
  | nextAddressRead c a => exact portedIO_flows hr (.of_records (by simp))
  | slotHeadRead c h => exact portedIO_flows hr (.of_records (by (repeat' split) <;> simp))
  | writeBackComplete => exact portedIO_flows hr (.of_records (by (repeat' split) <;> simp))
  | blockStateWriteComplete c => exact portedIO_flows hr (.of_records (by (repeat' split) <;> simp))
  | recordPlace => exact portedIO_flows hr (.of_records (by (repeat' split) <;> simp))
  | captureDoneComplete => exact execCaptureDoneComplete_flows hr
  | dmaReadFailed c => exact portedIO_flows hr (.of_records (by simp))
  | dmaReadTimeout c => exact portedIO_flows hr (.of_records (by simp))
  | dmaWriteFailed f => exact execDmaWriteFailed_flows hr f
  | setTime t => exact takeControl_flows hr _ _ (.of_records (s.setTime_records ..))
  | setSteering p k policy limit threshold => exact takeControl_flows hr _ _ (.of_records (s.setSteering_records ..))
  | setTraceLimits divergence floor rate => exact takeControl_flows hr _ _ (.of_records (s.setTraceLimits_records ..))
  | openLine index => exact takeControl_flows hr _ _ (.of_records (s.setAdmission_records ..))
  | closeLine index => exact takeControl_flows hr _ _ (.of_records (s.setAdmission_records ..))
  | setLineParams index a b => exact takeControl_flows hr _ _ (.of_records (s.setLineParams_records ..))
  | setSequence next run => exact takeControl_flows hr _ _ (s.setSequence_flows next run)
  | armGroup g m w x o c => exact takeControl_flows hr _ _ (.of_records (s.arm_records ..))
  | disarmGroup g => exact takeControl_flows hr _ _ (.of_records (s.disarm_records ..))
  | setSeed seed => exact takeControl_flows hr _ _ (.of_records rfl)
  | setAlarm index period first => exact takeControl_flows hr _ _ (.of_records (s.setAlarmEntry_records ..))
  | cancelAlarm index => exact takeControl_flows hr _ _ (.of_records (s.cancelAlarm_records ..))
  | setEvidenceParams period c0 c1 => exact takeControl_flows hr _ _ (.of_records (s.setEvidence_records ..))
  | queryStatus => exact takeControl_flows hr _ _ (.of_records (by simp))
  | setCaptureParams flush high low push all => exact takeControl_flows hr _ _ (.of_records (s.setCapture_records ..))
  | stamp g n payload => exact takeEngine_flows hr _ _ _ _ _
  | extend g => exact takeEngine_flows hr _ _ _ _ _
  | abandon g => exact takeEngine_flows hr _ _ _ _ _
  | start c => exact windowedIO_flows hr (.of_records (s.command_records c (s.startChain_records c)))
  | resume c => exact windowedIO_flows hr (.of_records (s.command_records c (s.resumeChain_records c)))
  | stop c => exact windowedIO_flows hr (.of_records (s.command_records c (s.stopChain_records c)))
  | chainCommandUndefined c => exact windowed_flows hr (.of_records (by simp))
  | chainAddrWrite c part value => exact windowed_flows hr (.of_records (by simp))
  | noticeClear v => exact windowed_flows hr (.of_records rfl)
  | noticeEnableWrite v => exact windowed_flows hr (.of_records rfl)
  | vectorUnmasked => exact linked_flows hr (.of_records rfl)
  | registerWriteIgnored w => exact leavesFlows_next (.of_records rfl)
  | lines => exact windowed_flows hr (.of_records (by simp))
  | auctions => exact windowed_flows hr (.of_records (by split <;> simp))
  | chains =>
    refine windowed_flows hr ?_
    split
    · exact s.startScope_flows
    · exact .of_records rfl
  | chainsResetEffect => exact leavesFlows_gated (.of_records (by rw [State.takeScope_of_ready hr]))

/-- Settles O29: one evaluation, every command, and a change of the records by itself. -/
theorem flowControl : Obligations.FlowControl := by
  refine ⟨fun l fill high low => ⟨Line.nextHold_eq .., Line.evalFlow_flowDue .., rfl, rfl⟩, fun c s t hr ht => ?_, fun s rs l => ?_⟩
  · intro old fill hne
    have h := exec_flows c hr t ht
    exact ⟨h.lines hne, h.high hne⟩
  · refine ⟨State.setRecords_line .., congrArg State.pst (s.setRecords_frame rs), fun hclear => ?_⟩
    have hset (u : State) (b : Bool) (hu : u.prt.notice.getLsbD 10 = false) :
        (u.notifyIf b .pendingHigh).prt.notice.getLsbD 10 = true ↔ b = true := by
      cases b
      · simpa [State.notifyIf] using hu
      · exact ⟨fun _ => rfl, fun _ => State.notifyIf_notice (c := .pendingHigh) rfl⟩
    let u : State := ({ s with pst := { s.pst with records := rs } } : State).flowAll
    have hu : u.prt.notice.getLsbD 10 = false := hclear
    rw [State.setRecords, hset u _ hu]
    simp

end Sys2Proof.Machine
end

section
/-! Records of one class in the agenda, and the settings of TB and DU (O16). -/

namespace Sys2Proof.Machine

open Sys2Proof

/-! ## The records of a coalescing class (R86, R87) -/

/-- A CLOCK record of subkind `k`. -/
def Body.isClock (k : Nat) : Body → Bool
  | .clock _ _ b => b.code == k
  | _ => false

theorem Body.isClock_iff (k : Nat) (b : Body) : b.isClock k = true ↔ ∃ theta marker c, b = .clock theta marker c ∧ c.code = k := by
  cases b <;> simp [Body.isClock]

/-- The bodies of one coalescing class (R87). -/
structure IsClass (q : Body → Bool) : Prop where
  same : ∀ w a : Body, q w = true → w.sameClass a = q a
  merge : ∀ w a : Body, q (w.merge a) = q w

theorem isClass_isClock (k : Nat) : IsClass (Body.isClock k) where
  same w a h := by
    obtain ⟨theta, marker, c, rfl, rfl⟩ := (w.isClock_iff k).1 h
    cases a <;> simp [Body.sameClass, Body.isClock, eq_comm]
  merge w a := by cases w <;> cases a <;> simp [Body.merge, Body.isClock, ClockBody.merge_code]

/-- No record of a class waits. -/
abbrev State.lacks (s : State) (q : Body → Bool) : Prop := ∀ w ∈ s.sqm.agenda, q w.body = false

theorem State.lacks_of_not_waits {s : State} {k : Nat} (h : ¬ s.waits k) : s.lacks (Body.isClock k) := by
  intro w hw
  by_contra hc
  rw [Bool.not_eq_false] at hc
  obtain ⟨theta, marker, c, hb, hk⟩ := (w.body.isClock_iff k).1 hc
  exact h ⟨w, hw, theta, marker, c, hb, hk⟩

/-- From `s` to `t` the records of a class stay as they are, and none is created. -/
structure State.KeepsClass (q : Body → Bool) (s t : State) : Prop where
  lacks : s.lacks q → t.lacks q
  mem : ∀ w ∈ s.sqm.agenda, q w.body = true → w ∈ t.sqm.agenda

section
variable {q : Body → Bool}

theorem State.KeepsClass.of_agenda {s t : State} (h : t.sqm.agenda = s.sqm.agenda) : s.KeepsClass q t :=
  ⟨fun hs => by rw [State.lacks, h]; exact hs, fun w hw _ => by rw [h]; exact hw⟩

theorem State.KeepsClass.refl (s : State) : s.KeepsClass q s := .of_agenda rfl

theorem State.KeepsClass.trans {s t u : State} (h : s.KeepsClass q t) (h' : t.KeepsClass q u) : s.KeepsClass q u :=
  ⟨h'.lacks ∘ h.lacks, fun w hw hk => h'.mem w (h.mem w hw hk) hk⟩

theorem State.KeepsClass.ite {s a b : State} {c : Prop} [Decidable c] (ha : s.KeepsClass q a) (hb : s.KeepsClass q b) :
    s.KeepsClass q (if c then a else b) := by
  split
  · exact ha
  · exact hb

theorem State.KeepsClass.foldl {α : Type} {f : State → α → State} (hf : ∀ (s : State) (a : α), s.KeepsClass q (f s a))
    (l : List α) (s : State) : s.KeepsClass q (l.foldl f s) := by
  induction l generalizing s with
  | nil => exact .refl s
  | cons a l ih => exact (hf s a).trans (ih _)

theorem State.create_keepsClass (hq : IsClass q) (s : State) (t : Stamp) (cls : TraceClass) (g : Nat)
    (late stepped : Bool) {body : Body} (h : q body = false) : s.KeepsClass q (s.create t cls g late stepped body) := by
  let e : Internal := ⟨t, cls, g, late, stepped, false, 1, s.sqm.created, body⟩
  have he : (s.create t cls g late stepped body).sqm.agenda = arrive e s.sqm.agenda := rfl
  refine ⟨fun hs w hw => ?_, fun w hw hk => ?_⟩
  · rw [he] at hw
    rcases arrive_cases e s.sqm.agenda with ⟨-, ha⟩ | ⟨-, ha⟩ <;> rw [ha] at hw
    · rcases mem_insertAgenda.1 hw with rfl | hw
      · exact h
      · exact hs w hw
    · obtain ⟨x, hx, rfl⟩ := List.mem_map.1 hw
      split
      · exact (hq.merge ..).trans (hs x hx)
      · exact hs x hx
  · rw [he]
    rcases arrive_cases e s.sqm.agenda with ⟨-, ha⟩ | ⟨-, ha⟩ <;> rw [ha]
    · exact mem_insertAgenda.2 (.inr hw)
    · refine List.mem_map.2 ⟨w, hw, if_neg ?_⟩
      rw [hq.same _ _ hk, show q e.body = false from h]
      exact Bool.false_ne_true

theorem State.create_holds (hq : IsClass q) {s : State} {body : Body} (hb : q body = true) (h : s.lacks q)
    (t : Stamp) (cls : TraceClass) : (s.create t cls 255 false false body).holds t cls body := by
  let e : Internal := ⟨t, cls, 255, false, false, false, 1, s.sqm.created, body⟩
  have hmem : e ∈ arrive e s.sqm.agenda := by
    rcases arrive_cases e s.sqm.agenda with ⟨-, ha⟩ | ⟨⟨w, hw, hc⟩, -⟩
    · rw [ha]
      exact mem_insertAgenda.2 (.inl rfl)
    · rw [Body.sameClass_symm, hq.same _ _ hb, h w hw] at hc
      exact absurd hc Bool.false_ne_true
  exact ⟨e, hmem, rfl, rfl, rfl, rfl⟩

theorem State.KeepsClass.holds {s t : State} (h : s.KeepsClass q t) {stamp : Stamp} {cls : TraceClass} {body : Body}
    (hb : q body = true) (hs : s.holds stamp cls body) : t.holds stamp cls body := by
  obtain ⟨e, he, h1, h2, h3, h4⟩ := hs
  exact ⟨e, h.mem e he (h4 ▸ hb), h1, h2, h3, h4⟩

end

theorem State.classChanged_keepsClass {k : Nat} (hk : 5 ≠ k) (s : State) (old : TraceClass) (now : Stamp) (cls : TraceClass) :
    s.KeepsClass (Body.isClock k) (s.classChanged old now cls) := by
  unfold State.classChanged
  refine .ite ?_ (.refl s)
  refine State.KeepsClass.trans (State.create_keepsClass (isClass_isClock k) _ _ _ _ _ _ ?_) (.of_agenda rfl)
  simpa [Body.isClock, ClockBody.code] using hk

/-! ## SET_STEERING (R22) -/

theorem steeredC_eq (st : DState) (c i : Int) (limit : Nat) : steeredC st c i limit =
    if st = .holdover ∨ st = .reacquiring then -i else if st = .free ∨ st = .acquiring then 0 else clamp c limit := by
  cases st <;> rfl

/-- The settings before the record of their change. -/
def State.steered (s : State) (x : Steering) (i c : Int) : State := { s with
  du := { s.du with steering := x, i := i, c := c }
  tb := { s.tb with inc := if c = s.du.c then s.tb.inc else incOf c, demand := if x.never then none else s.tb.demand } }

theorem State.steer_eq (s : State) (x : Steering) :
    let i := clamp s.du.i x.limit
    let c := steeredC s.du.state s.du.c i x.limit
    s.steer x = (s.steered x i c).createLeft
      (.clock 0 none (.params (some { old := s.du.steering, new := x, i := i, c := c }) none)) := by
  intro i c
  unfold State.steer
  dsimp only
  by_cases h : c = s.du.c
  · rw [if_neg (by exact fun hc => hc h)]
    simp only [State.steered, if_pos h]
    rfl
  · rw [if_pos (by exact h)]
    simp only [State.steered, if_neg h]
    rfl

theorem State.steer_answersAs (s : State) (x : Steering) : s.AnswersAs (s.steer x) := by
  rw [State.steer_eq]
  exact ⟨rfl, rfl, rfl, rfl⟩

/-- SET_STEERING by whether its fields fit. -/
theorem setSteering_cases (p k policy : Byte) (limit threshold : BitVec 32) :
    let fits : Prop := p.toNat ≤ 8 ∧ k.toNat ≤ 16 ∧ policy.toNat ≤ 1 ∧ 1 ≤ limit.toNat
       ∧ limit.toNat ≤ 500000 ∧ 1000 ≤ threshold.toNat ∧ threshold.toNat ≤ 1000000000
    (¬ fits → steeringOf p k policy limit threshold = none)
      ∧ (fits → steeringOf p k policy limit threshold = some
          ⟨p.toNat, k.toNat, limit.toNat, threshold.toNat, policy == 1#8⟩) := by
  intro fits
  refine ⟨fun h => if_neg h, fun h => (if_pos h).trans ?_⟩
  have hp : (policy.toNat == 1) = (policy == 1#8) := by
    rw [Bool.eq_iff_iff, beq_iff_eq, beq_iff_eq, ← BitVec.toNat_inj]
    rfl
  rw [hp]

/-! ## SET_TRACE_LIMITS (R45) -/

/-- Settles O16: each request by whether its fields fit. -/
theorem settingsOfTime : Obligations.SettingsOfTime := by
  refine ⟨fun s off h p k policy limit threshold hs => ?_, fun s off h divergence floor rate hs => ?_⟩
  · intro fits x i c t
    obtain ⟨hnone, hsome⟩ := setSteering_cases p k policy limit threshold
    refine ⟨fun hf => takeControl_refused hs _ _ .range (by simp only [State.setSteering, hnone hf]), fun hf => ?_⟩
    have hc : steeredC s.du.state s.du.c i x.limit = c := steeredC_eq ..
    have hsteer : s.steer x = t := by
      refine (s.steer_eq x).trans ?_
      rw [hc]
      rfl
    have howner : s.setSteering p k policy limit threshold = ⟨t.left, .ok, leSigned 4 i ++ leSigned 4 c⟩ := by
      simp only [State.setSteering, hsome hf]
      rw [show s.steer _ = t from hsteer]
      rfl
    exact takeControl_of_answer hs howner ((hsteer ▸ s.steer_answersAs x).trans t.left_answersAs)
  · intro fits x growing cls du v
    refine ⟨fun hf => ?_, fun hf => ?_⟩
    · have hnone : limitsOf divergence floor rate = none := if_neg hf
      exact takeControl_refused hs _ _ .range (by simp only [State.setTraceLimits, hnone])
    have hsome : limitsOf divergence floor rate = some x := if_pos hf
    have howner : s.setTraceLimits divergence floor rate = granted (s.limitTrace x).left
        (leBytes 4 (s.limitTrace x).du.e ++ u8 (s.limitTrace x).du.cls.code ++ pad 3) := by
      simp only [State.setTraceLimits, hsome]
    let s1 : State := { s with du := du }
    let body : Body := .clock 0 none (.params none (some { old := s.du.limits, new := x, e := s.du.e, cls := cls }))
    have ht : s.limitTrace x
        = ((s1.classChanged s.du.cls v.now v.du.cls).create v.now v.du.cls 255 false false body).handOver := rfl
    have hdu : (s.limitTrace x).du = du := by simp [ht, s1]
    refine ⟨s.limitTrace x, ?_, hdu, fun hne => ?_, fun hwait => ?_, ?_⟩
    · have hans : s.AnswersAs (s.limitTrace x) := ⟨by simp [ht, s1], by simp [ht, s1], by simp [ht, s1], by simp [ht, s1]⟩
      refine takeControl_of_answer hs (howner.trans ?_) (hans.trans (State.left_answersAs _))
      rw [hdu]
      rfl
    · have hcls : s1.du.cls ≠ s.du.cls := hne
      have hnotice : (s1.classChanged s.du.cls v.now v.du.cls).prt.notice.getLsbD 7 = true := by
        rw [State.classChanged, if_pos hcls]
        exact State.notifyIf_notice (b := true) (c := .traceChange) rfl
      exact hnotice
    · have hkeep : s1.KeepsClass (Body.isClock 6) (s1.classChanged s.du.cls v.now v.du.cls) :=
        State.classChanged_keepsClass (by decide) ..
      exact State.create_holds (isClass_isClock 6) rfl (hkeep.lacks (State.lacks_of_not_waits (s := s) hwait)) _ _
    · rw [ht]
      unfold State.classChanged
      split <;> rfl

end Sys2Proof.Machine
end

section
/-! What a moved counter does to the timers and the alarms (R19, R113 to R115, R120). -/

namespace Sys2Proof.Machine

open Sys2Proof

/-! ## CLOCK records leave groups and alarms alone -/

/-- A CLOCK record, of any subkind. -/
def Body.clocked : Body → Bool
  | .clock .. => true
  | _ => false

/-- From `s` to `t` the agenda changes in its CLOCK records alone, ATU not at all, and causes stay set. -/
structure State.AddsClocks (s t : State) : Prop extends s.KeepsNotices t where
  atu : t.atu = s.atu
  mem : ∀ w : Internal, w.body.clocked = false → (w ∈ t.sqm.agenda ↔ w ∈ s.sqm.agenda)

theorem State.AddsClocks.of_same {s t : State} (ha : t.atu = s.atu) (hq : t.sqm = s.sqm) (hp : t.prt = s.prt) : s.AddsClocks t :=
  ⟨.of_prt hp, ha, fun w _ => by rw [hq]⟩

theorem State.AddsClocks.refl (s : State) : s.AddsClocks s := .of_same rfl rfl rfl

theorem State.AddsClocks.trans {s t u : State} (h : s.AddsClocks t) (k : t.AddsClocks u) : s.AddsClocks u :=
  ⟨h.toKeepsNotices.trans k.toKeepsNotices, k.atu.trans h.atu, fun w hw => (k.mem w hw).trans (h.mem w hw)⟩

theorem State.AddsClocks.ite {s a b : State} {c : Prop} [Decidable c] (ha : s.AddsClocks a) (hb : s.AddsClocks b) :
    s.AddsClocks (if c then a else b) := by
  split
  · exact ha
  · exact hb

/-- A record that arrives changes none of the records outside a sort that is closed under coalescing. -/
theorem State.mem_create_of_other {p : Body → Bool} {body : Body} (hmerge : ∀ w a : Body, p (w.merge a) = p w)
    (hsame : ∀ w : Body, w.sameClass body = true → p w = true) (hb : p body = true) {w : Internal} (hw : p w.body = false)
    (s : State) (t : Stamp) (cls : TraceClass) (g : Nat) (late stepped : Bool) :
    w ∈ (s.create t cls g late stepped body).sqm.agenda ↔ w ∈ s.sqm.agenda := by
  let e : Internal := ⟨t, cls, g, late, stepped, false, 1, s.sqm.created, body⟩
  show w ∈ arrive e s.sqm.agenda ↔ _
  rcases arrive_cases e s.sqm.agenda with ⟨-, ha⟩ | ⟨-, ha⟩ <;> rw [ha]
  · rw [mem_insertAgenda]
    refine or_iff_right fun he => ?_
    rw [he, show p e.body = true from hb] at hw
    exact Bool.noConfusion hw
  · rw [List.mem_map]
    refine ⟨fun ⟨x, hx, hxw⟩ => ?_, fun hm => ⟨w, hm, if_neg fun hc => ?_⟩⟩
    · by_cases hc : x.body.sameClass e.body = true
      · rw [if_pos hc] at hxw
        rw [← hxw, show p (x.merge e).body = _ from hmerge .., hsame _ hc] at hw
        exact Bool.noConfusion hw
      · rw [if_neg hc] at hxw
        exact hxw ▸ hx
    · rw [hsame _ hc] at hw
      exact Bool.noConfusion hw

theorem Body.merge_clocked (w a : Body) : (w.merge a).clocked = w.clocked := by
  cases w <;> cases a <;> rfl

theorem Body.clocked_of_sameClass {w a : Body} (ha : a.clocked = true) (h : w.sameClass a = true) : w.clocked = true := by
  cases a <;> cases w <;> simp_all [Body.clocked, Body.sameClass]

theorem State.create_addsClocks (s : State) (t : Stamp) (cls : TraceClass) (g : Nat) (late stepped : Bool) {body : Body}
    (h : body.clocked = true) : s.AddsClocks (s.create t cls g late stepped body) :=
  ⟨⟨fun _ => id⟩, rfl, fun _ hw => State.mem_create_of_other Body.merge_clocked (fun _ => Body.clocked_of_sameClass h) h hw
    s t cls g late stepped⟩

/-! ## Groups with no timer armed -/

/-- None of the group's timers is armed. -/
structure Group.Unarmed (x : Group) : Prop where
  call : x.callTimer = false
  window : x.windowTimer = false
  close : x.closeTimer = false

theorem State.passGroup_of_unarmed {s : State} {g : Fin 64} (h : (s.group g).Unarmed) (pre post : Instant) :
    s.passGroup pre post g = s := by
  obtain ⟨h1, h2, h3⟩ := h
  unfold State.passGroup
  cases hd : (s.group g).drawn <;> simp [hd, h1, h2, h3, passed]

/-- The records that passing a group's timers over creates are that group's. -/
theorem State.passGroup_mem {s : State} {g : Fin 64} {pre post : Instant} {e : Internal}
    (h : e ∈ (s.passGroup pre post g).sqm.agenda) : e ∈ s.sqm.agenda ∨ e.group = g.val := by
  have hcreate {u v : State} {body : Body} {st : Stamp} {cls : TraceClass} {late passed : Bool} (hb : body.isGroup = true)
      (hv : v.sqm = u.sqm) (he : e ∈ (v.create st cls g.val late passed body).sqm.agenda) :
      e ∈ u.sqm.agenda ∨ e.group = g.val := by
    rw [State.mem_create_of_isGroup _ _ _ _ _ _ hb, hv] at he
    rcases he with rfl | he
    · exact .inr rfl
    · exact .inl he
  have hcall (u : State) (c : Bool) (n : Nat) (he : e ∈ (if c then u.runCallOpen g n u.du.cls false true else u).sqm.agenda) :
      e ∈ u.sqm.agenda ∨ e.group = g.val := by
    cases c
    · exact .inl he
    · exact hcreate (u := u) rfl (by simp) he
  have hwindow (u : State) (c : Bool) (he : e ∈ (if c then u.runWindow g u.du.cls true else u).sqm.agenda) :
      e ∈ u.sqm.agenda ∨ e.group = g.val := by
    cases c
    · exact .inl he
    · exact hcreate (u := u) rfl (by simp) he
  have hclose (u : State) (c : Bool) (he : e ∈ (if c then u.runClose g u.du.cls true else u).sqm.agenda) :
      e ∈ u.sqm.agenda ∨ e.group = g.val := by
    cases c
    · exact .inl he
    · simp only [State.runClose, if_true] at he
      split at he
      · exact hcreate (u := u) rfl (by simp) he
      · exact .inl he
  have hset (u : State) (c : Bool) (x : Group) (he : e ∈ (if c then u.setGroup g x else u).sqm.agenda) : e ∈ u.sqm.agenda := by
    cases c <;> exact he
  unfold State.passGroup at h
  dsimp only at h
  rcases hclose _ _ (hset _ _ _ h) with h | h
  · rcases hwindow _ _ h with h | h
    · exact hcall _ _ _ h
    · exact .inr h
  · exact .inr h

end Sys2Proof.Machine
end

section
/-! The work of a judged second (O19, O20, O22). -/

namespace Sys2Proof.Machine

open Sys2Proof

/-! ## Records of a class that groups and alarms are none of -/

theorem State.KeepsClass.thenCreate {q : Body → Bool} {s u : State} (h : s.KeepsClass q u) (hq : IsClass q) {body : Body}
    (hb : q body = false) (t : Stamp) (cls : TraceClass) (g : Nat) (late stepped : Bool) :
    s.KeepsClass q (u.create t cls g late stepped body) := h.trans (u.create_keepsClass hq t cls g late stepped hb)

section
variable {q : Body → Bool} (hq : IsClass q) (hg : ∀ b : Body, b.isGroup = true → q b = false)
include hq hg

theorem State.abandonGroup_keepsClass (pre : Stamp) (cls : TraceClass) (s : State) (g : Fin 64) :
    s.KeepsClass q (s.abandonGroup pre cls g) := by
  have hremove : s.KeepsClass q (s.removeGroupRecords g fun _ => true) := by
    refine ⟨fun hs w hw => hs w (List.mem_filter.1 hw).1, fun w hw hk => List.mem_filter.2 ⟨hw, ?_⟩⟩
    have hgroup : w.body.isGroup = false := by
      by_contra hc
      rw [hg _ (Bool.not_eq_false _ ▸ hc)] at hk
      exact Bool.noConfusion hk
    simp [hgroup]
  refine .ite ?_ (.refl s)
  exact .thenCreate (hremove.trans (.of_agenda (by rfl))) hq (hg _ (by rfl)) ..

theorem State.abandonRunning_keepsClass (s : State) (pre : Stamp) (cls : TraceClass) :
    s.KeepsClass q (s.abandonRunning pre cls) := .foldl (State.abandonGroup_keepsClass hq hg pre cls) _ s

theorem State.passGroup_keepsClass (pre post : Instant) (s : State) (g : Fin 64) :
    s.KeepsClass q (s.passGroup pre post g) := by
  have hcall (c : Bool) : s.KeepsClass q (if c then s.runCallOpen g s.tb.epoch s.du.cls false true else s) :=
    .ite (.thenCreate (.of_agenda (by rfl)) hq (hg _ (by rfl)) ..) (.refl s)
  have hwindow (u : State) (c : Bool) : u.KeepsClass q (if c then u.runWindow g u.du.cls true else u) :=
    .ite (.thenCreate (.of_agenda (by rfl)) hq (hg _ (by rfl)) ..) (.refl u)
  have hclose (u : State) (c : Bool) : u.KeepsClass q (if c then u.runClose g u.du.cls true else u) := by
    refine .ite ?_ (.refl u)
    unfold State.runClose
    split
    · exact .thenCreate (.of_agenda (by rfl)) hq (hg _ (by rfl)) ..
    · exact .refl u
  have hset (u : State) (c : Bool) (x : Group) : u.KeepsClass q (if c then u.setGroup g x else u) :=
    .ite (.of_agenda rfl) (.refl u)
  exact (((hcall _).trans (hwindow _ _)).trans (hclose _ _)).trans (hset _ _ _)

end

section
variable {q : Body → Bool} (hq : IsClass q)
include hq

theorem State.passAlarm_keepsClass (pre post : Instant) (s : State) (a : Fin 8)
    (ha : ∀ n : Nat, q (.alarm a.val n) = false) : s.KeepsClass q (s.passAlarm pre post a) := by
  unfold State.passAlarm
  split
  · exact .refl s
  · refine .ite ?_ (.refl s)
    exact State.KeepsClass.trans (.thenCreate (.of_agenda (by rfl)) hq (ha _) ..) (.of_agenda (by rfl))

end

/-- What waits in the agenda of CLOCK records of subkind `k` is not changed by groups and alarms. -/
theorem isClock_of_isGroup (k : Nat) (b : Body) (h : b.isGroup = true) : b.isClock k = false := by
  cases b with
  | clock theta marker c => exact absurd h (by simp [Body.isGroup, Body.kindRank])
  | _ => rfl

section
variable {k : Nat}

theorem State.createClock_keepsClass {s u : State} (h : s.KeepsClass (Body.isClock k) u) {c : ClockBody} (hk : c.code ≠ k)
    (theta : Int) (marker : Option Stamp) (t : Stamp) (cls : TraceClass) :
    s.KeepsClass (Body.isClock k) (u.create t cls 255 false false (.clock theta marker c)) :=
  .thenCreate h (isClass_isClock k) (by simpa [Body.isClock] using hk) ..

theorem State.passTimers_keepsClock (s : State) (pre post : Instant) :
    s.KeepsClass (Body.isClock k) (s.passTimers pre post) := by
  have hgroups : s.KeepsClass (Body.isClock k) (allGroups.foldl (State.passGroup pre post) s) :=
    .foldl (State.passGroup_keepsClass (isClass_isClock k) (isClock_of_isGroup k) pre post) _ s
  exact hgroups.trans (.foldl (fun t a => t.passAlarm_keepsClass (isClass_isClock k) pre post a fun _ => rfl) _ _)

theorem State.afterMove_keepsClock (s : State) (pre post : Instant) (d : Int) :
    s.KeepsClass (Body.isClock k) (s.afterMove pre post d) :=
  State.KeepsClass.trans (t := s.moveEvidence post) (.of_agenda rfl) (.ite (State.passTimers_keepsClock ..) (.refl _))

theorem State.applyStep_keepsClock (hk : 2 ≠ k) (s : State) (cls : TraceClass) (sec : Second) :
    s.KeepsClass (Body.isClock k) (s.applyStep cls sec) := by
  unfold State.applyStep
  refine State.KeepsClass.trans ?_ (State.afterMove_keepsClock ..)
  exact State.createClock_keepsClass (.of_agenda (by rfl)) (by exact hk) ..

theorem State.applySet_keepsClock (hk : 3 ≠ k) (s : State) (cls : TraceClass) (sec : Second) :
    s.KeepsClass (Body.isClock k) (s.applySet cls sec) := by
  have habandon := s.abandonRunning_keepsClass (isClass_isClock k) (isClock_of_isGroup k) s.now cls
  refine .ite ?_ ?_
  · have hrecord := State.createClock_keepsClass habandon (c := .set s.now s.now) hk sec.theta sec.latch s.now cls
    exact ⟨hrecord.lacks, hrecord.mem⟩
  · have hplace (u : State) (i : Instant) (frac epoch : Nat) : u.KeepsClass (Body.isClock k) (u.placeCounter i frac epoch) :=
      .of_agenda rfl
    exact (State.createClock_keepsClass (habandon.trans (hplace ..)) (by exact hk) ..).trans (State.afterMove_keepsClock ..)

theorem State.moveTime_keepsClock (h2 : 2 ≠ k) (h3 : 3 ≠ k) (s : State) (cls : TraceClass) (sec : Second) (mv : Move) :
    s.KeepsClass (Body.isClock k) (s.moveTime cls sec mv) := by
  have h (d : Option Demand) : s.KeepsClass (Body.isClock k) { s with tb := { s.tb with demand := d } } := .of_agenda rfl
  cases mv with
  | keep => exact .refl s
  | withdraw => exact h _
  | hold => exact h _
  | step => exact (h none).trans (State.applyStep_keepsClock h2 ..)
  | set => exact (h none).trans (State.applySet_keepsClock h3 ..)

theorem State.stateChanged_keepsClock (hk : 1 ≠ k) (s : State) (old : DState) (sec : Second) :
    s.KeepsClass (Body.isClock k) (s.stateChanged old sec) := by
  refine .ite ?_ (.refl s)
  have hcreate := State.createClock_keepsClass (.refl s) (c := .state old s.du.state sec.cause sec.seen.quality
    sec.seen.source sec.goodRun sec.badRun sec.expected) hk sec.theta sec.latch s.now s.du.cls
  exact ⟨hcreate.lacks, hcreate.mem⟩

theorem State.holdDemand_keepsClock (hk : 7 ≠ k) (s : State) (newly : Bool) (sec : Second) :
    s.KeepsClass (Body.isClock k) (s.holdDemand newly sec) := by
  refine .ite ?_ (.refl s)
  have hcreate := State.createClock_keepsClass (.of_agenda (s := s) (t := (s.notify .stepHeld).handHeld) rfl)
    (c := .held s.now (s.heldTime sec.d) sec.d (decide (sec.d > 0))) hk sec.theta sec.latch s.now s.du.cls
  exact ⟨hcreate.lacks, hcreate.mem⟩

theorem State.adoptOffset_keepsClock (hk : 4 ≠ k) (s : State) (sec : Second) :
    s.KeepsClass (Body.isClock k) (s.adoptOffset sec) := by
  refine .ite ?_ (.refl s)
  have hcreate := State.createClock_keepsClass (.refl s) (c := .offset s.tb.utcOffset sec.utcOffset) hk sec.theta
    sec.latch s.now s.du.cls
  exact ⟨hcreate.lacks, hcreate.mem⟩

end

/-! ## The counter's part (R12, R17) -/

theorem State.applyStep_tb (s : State) (cls : TraceClass) (sec : Second) : (s.applyStep cls sec).tb = { s.tb with
    sec := (s.movedBy sec.d).sec, ns := (s.movedBy sec.d).ns, epoch := (s.movedBy sec.d).epoch } := by
  simp [State.applyStep, State.placeCounter, Stamp.instant]

theorem State.applySet_tb (s : State) (cls : TraceClass) (sec : Second) : (s.applySet cls sec).tb =
    if Config.epochMax ≤ s.tb.epoch ∧ 0 < sec.d then s.tb else { s.tb with
      sec := (s.movedBy sec.d).sec, ns := (s.movedBy sec.d).ns, epoch := (s.movedBy sec.d).epoch } := by
  unfold State.applySet
  dsimp only
  split <;> simp_all [State.placeCounter, Stamp.instant, State.moveEvidence]

theorem State.moveTime_utcOffset (s : State) (cls : TraceClass) (sec : Second) (mv : Move) :
    (s.moveTime cls sec mv).tb.utcOffset = s.tb.utcOffset := by
  cases mv with
  | keep | withdraw | hold => rfl
  | step => exact (congrArg TB.utcOffset (State.applyStep_tb _ cls sec)).trans rfl
  | set =>
    refine (congrArg TB.utcOffset (State.applySet_tb _ cls sec)).trans ?_
    split <;> rfl

/-! ## The stages of a second's work (R36) -/

/-- DU's part, with INC. -/
def State.planned (s : State) (sec : Second) : State := State.setInc { s with du := s.duAfter sec (s.moveOf sec) }

/-- And the counter's. -/
def State.moved (s : State) (sec : Second) : State := (s.planned sec).moveTime s.du.cls sec (s.moveOf sec)

def State.newlyHeld (s : State) (sec : Second) : Bool := decide (s.moveOf sec = .hold) && s.tb.demand.isNone

/-- And the record of the discipline state. -/
def State.stated (s : State) (sec : Second) : State := (s.moved sec).stateChanged s.du.state sec

/-- And a demand that is new. -/
def State.demanded (s : State) (sec : Second) : State := (s.stated sec).holdDemand (s.newlyHeld sec) sec

/-- And the record of the class. -/
def State.classed (s : State) (sec : Second) : State :=
  (s.demanded sec).classChanged s.du.cls (s.demanded sec).now (s.demanded sec).du.cls

/-- And the UTC offset. -/
def State.adopted (s : State) (sec : Second) : State := (s.classed sec).adoptOffset sec

theorem State.workOf_eq (s : State) (sec : Second) : s.workOf sec =
    (s.adopted sec).handSecond (servoSecond s.du.state (s.du.state.after sec.cause)) sec := rfl

section
variable (s : State) (sec : Second)

theorem State.moved_du : (s.moved sec).du = s.duAfter sec (s.moveOf sec) := by simp [State.moved, State.planned, State.setInc]

theorem State.demanded_same : (s.demanded sec).du = (s.moved sec).du ∧ (s.demanded sec).tb = (s.moved sec).tb
    ∧ (s.demanded sec).clock = (s.moved sec).clock ∧ (s.demanded sec).atu = (s.moved sec).atu
    ∧ (s.demanded sec).lines = s.lines := by
  simp [State.demanded, State.stated, State.moved, State.planned, State.setInc]

theorem State.classed_same : (s.classed sec).du = (s.moved sec).du ∧ (s.classed sec).tb = (s.moved sec).tb
    ∧ (s.classed sec).clock = (s.moved sec).clock ∧ (s.classed sec).atu = (s.moved sec).atu
    ∧ (s.classed sec).lines = s.lines := by
  simp [State.classed, s.demanded_same]

theorem State.workOf_du : (s.workOf sec).du = s.duAfter sec (s.moveOf sec) := by
  simp [State.workOf_eq, State.adopted, s.classed_same, s.moved_du]

theorem State.workOf_tb : (s.workOf sec).tb = { (s.moved sec).tb with
    utcOffset := if sec.cause.good ∧ s.du.state.after sec.cause = .locked then sec.utcOffset
      else (s.moved sec).tb.utcOffset } := by
  have hdu : (s.classed sec).du.state = s.du.state.after sec.cause := by
    rw [(s.classed_same sec).1, s.moved_du]
    rfl
  have htb : (s.classed sec).tb = (s.moved sec).tb := (s.classed_same sec).2.1
  have hhand : (s.workOf sec).tb = (s.adopted sec).tb := by simp [State.workOf_eq]
  rw [hhand, State.adopted, State.adoptOffset, hdu, htb]
  by_cases h : sec.cause.good ∧ s.du.state.after sec.cause = .locked
  · by_cases he : sec.utcOffset = (s.moved sec).tb.utcOffset
    · simp [h, he, htb]
    · simp [h, he]
  · rw [if_neg h, if_neg (by simpa using fun h1 h2 => absurd ⟨h1, h2⟩ h), htb]

theorem State.workOf_now : (s.workOf sec).now = (s.moved sec).now := by rw [State.now, s.workOf_tb]; rfl

theorem State.workOf_rest : (s.workOf sec).clock = (s.moved sec).clock ∧ (s.workOf sec).lines = s.lines
    ∧ (s.workOf sec).atu = (s.moved sec).atu := by
  simp [State.workOf_eq, State.adopted, s.classed_same]

/-! ### The records and notices of the work -/

theorem State.moved_keepsClock {k : Nat} (h2 : 2 ≠ k) (h3 : 3 ≠ k) : s.KeepsClass (Body.isClock k) (s.moved sec) := by
  have hplanned : s.KeepsClass (Body.isClock k) (s.planned sec) := .of_agenda rfl
  exact hplanned.trans (State.moveTime_keepsClock h2 h3 _ s.du.cls sec _)

theorem State.demanded_keepsClock {k : Nat} (h1 : 1 ≠ k) (h2 : 2 ≠ k) (h3 : 3 ≠ k) (h7 : 7 ≠ k) :
    s.KeepsClass (Body.isClock k) (s.demanded sec) :=
  ((s.moved_keepsClock sec h2 h3).trans (State.stateChanged_keepsClock h1 _ s.du.state sec)).trans
    (State.holdDemand_keepsClock h7 _ _ sec)

theorem State.workOf_sqm : (s.workOf sec).sqm = (s.adopted sec).sqm := by simp [State.workOf_eq]

/-- A change of discipline state is announced and recorded (R37). -/
theorem State.workOf_stateChanged (h : s.du.state.after sec.cause ≠ s.du.state) :
    (s.workOf sec).prt.notice.getLsbD 6 = true ∧ (¬ s.waits 1 →
      (s.workOf sec).holds (s.workOf sec).now (s.workOf sec).du.cls (.clock sec.theta sec.latch
        (.state s.du.state (s.workOf sec).du.state sec.cause sec.seen.quality sec.seen.source sec.goodRun sec.badRun
          sec.expected))) := by
  have hstate : (s.moved sec).du.state = s.du.state.after sec.cause := by rw [s.moved_du]; rfl
  have hstated : s.stated sec = ((s.moved sec).createNow (.clock sec.theta sec.latch
      (.state s.du.state (s.moved sec).du.state sec.cause sec.seen.quality sec.seen.source sec.goodRun sec.badRun
        sec.expected))).notify .disciplineChange := if_pos (by rwa [hstate])
  have hsignals : (s.stated sec).Signals (s.workOf sec) :=
    (((State.holdDemand_signals _ _ sec).trans (State.classChanged_signals _ s.du.cls _ _)).trans
      (State.adoptOffset_signals _ sec)).trans (State.handSecond_signals _ _ sec)
  refine ⟨hsignals.notice 6 ?_, fun hw => ?_⟩
  · rw [hstated]
    exact State.notifyIf_notice (b := true) (c := .disciplineChange) rfl
  · rw [s.workOf_now, s.workOf_du, ← s.moved_du]
    have hlacks : (s.moved sec).lacks (Body.isClock 1) :=
      (s.moved_keepsClock sec (by decide) (by decide)).lacks (State.lacks_of_not_waits hw)
    have hlater : (s.stated sec).KeepsClass (Body.isClock 1) (s.workOf sec) :=
      (((State.holdDemand_keepsClock (by decide) _ _ sec).trans (State.classChanged_keepsClass (by decide) _ s.du.cls _ _)).trans
        (State.adoptOffset_keepsClock (by decide) _ sec)).trans (.of_agenda (by rw [s.workOf_sqm]; rfl))
    refine hlater.holds rfl ?_
    rw [hstated]
    exact State.create_holds (isClass_isClock 1) rfl hlacks _ _

/-- A change of trace class is announced and recorded (R44). -/
theorem State.workOf_classChanged (h : (s.workOf sec).du.cls ≠ s.du.cls) :
    (s.workOf sec).prt.notice.getLsbD 7 = true ∧ (¬ s.waits 5 →
      (s.workOf sec).holds (s.workOf sec).now (s.workOf sec).du.cls (.clock s.du.lastOffset none
        (.trace s.du.cls (s.workOf sec).du.cls (s.workOf sec).du.e s.du.limits.divergence))) := by
  obtain ⟨hdu, htb, -⟩ := s.demanded_same sec
  have hnow : (s.demanded sec).now = (s.moved sec).now := by rw [State.now, htb]; rfl
  rw [s.workOf_du, ← s.moved_du, ← hdu] at h
  have hclassed : s.classed sec = ((s.demanded sec).create (s.demanded sec).now (s.demanded sec).du.cls 255 false false
      (.clock (s.demanded sec).du.lastOffset none (.trace s.du.cls (s.demanded sec).du.cls (s.demanded sec).du.e
        (s.demanded sec).du.limits.divergence))).notify .traceChange := if_pos h
  have hsignals : (s.classed sec).Signals (s.workOf sec) :=
    (State.adoptOffset_signals _ sec).trans (State.handSecond_signals _ _ sec)
  refine ⟨hsignals.notice 7 ?_, fun hw => ?_⟩
  · rw [hclassed]
    exact State.notifyIf_notice (b := true) (c := .traceChange) rfl
  · rw [s.workOf_now, s.workOf_du, ← s.moved_du, ← hdu, ← hnow]
    have hearlier : s.KeepsClass (Body.isClock 5) (s.demanded sec) :=
      s.demanded_keepsClock sec (by decide) (by decide) (by decide) (by decide)
    have hlater : (s.classed sec).KeepsClass (Body.isClock 5) (s.workOf sec) :=
      (State.adoptOffset_keepsClock (by decide) _ sec).trans (.of_agenda (by rw [s.workOf_sqm]; rfl))
    refine hlater.holds rfl ?_
    rw [hclassed]
    have hlast : (s.demanded sec).du.lastOffset = s.du.lastOffset := by rw [hdu, s.moved_du]; rfl
    have hlimits : (s.demanded sec).du.limits = s.du.limits := by rw [hdu, s.moved_du]; rfl
    rw [hlast, hlimits]
    exact State.create_holds (isClass_isClock 5) rfl (hearlier.lacks (State.lacks_of_not_waits hw)) _ _

/-- A UTC offset that is adopted is recorded (R21). -/
theorem State.workOf_offset (h : (s.workOf sec).tb.utcOffset ≠ s.tb.utcOffset) (hw : ¬ s.waits 4) :
    (s.workOf sec).holds (s.workOf sec).now (s.workOf sec).du.cls
      (.clock sec.theta sec.latch (.offset s.tb.utcOffset sec.utcOffset)) := by
  obtain ⟨hdu, htb, -⟩ := s.classed_same sec
  have hnow : (s.classed sec).now = (s.moved sec).now := by rw [State.now, htb]; rfl
  have hold : (s.classed sec).tb.utcOffset = s.tb.utcOffset := by rw [htb]; exact State.moveTime_utcOffset ..
  have hadopts : (sec.cause.good && (s.classed sec).du.state == .locked && sec.utcOffset != (s.classed sec).tb.utcOffset)
      = true := by
    by_contra hc
    have hsame : s.adopted sec = s.classed sec := if_neg hc
    have htbs : (s.workOf sec).tb = (s.adopted sec).tb := by simp [State.workOf_eq]
    exact h (by rw [htbs, hsame, hold])
  rw [s.workOf_now, s.workOf_du, ← s.moved_du, ← hdu, ← hnow]
  have hearlier : s.KeepsClass (Body.isClock 4) (s.classed sec) :=
    (s.demanded_keepsClock sec (by decide) (by decide) (by decide) (by decide)).trans
      (State.classChanged_keepsClass (by decide) _ s.du.cls _ _)
  have hrecord : (s.adopted sec).holds (s.classed sec).now (s.classed sec).du.cls
      (.clock sec.theta sec.latch (.offset s.tb.utcOffset sec.utcOffset)) := by
    rw [State.adopted, State.adoptOffset, if_pos hadopts, hold]
    exact State.create_holds (isClass_isClock 4) rfl (hearlier.lacks (State.lacks_of_not_waits hw)) _ _
  rw [State.holds, s.workOf_sqm]
  exact hrecord

/-! ### What the work hands to ATT (R46, R126) -/

theorem State.afterMove_att (pre post : Instant) (d : Int) : (s.afterMove pre post d).att = (s.moveEvidence post).att := by
  unfold State.afterMove
  dsimp only
  split <;> simp

/-- What the counter's part leaves of ATT: the next boundary and the watched marks are new. -/
structure State.KeepsPeriod (s t : State) : Prop where
  att : t.att = { s.att with nextBoundary := t.att.nextBoundary, chk0 := t.att.chk0, chk1 := t.att.chk1 }

theorem State.moveTime_keepsPeriod (cls : TraceClass) (mv : Move) : s.KeepsPeriod (s.moveTime cls sec mv) := by
  have hmove (u : State) (pre post : Instant) (d : Int) (h : u.att = s.att) : s.KeepsPeriod (u.afterMove pre post d) :=
    ⟨by rw [State.afterMove_att, State.moveEvidence, h]⟩
  cases mv with
  | keep | withdraw | hold => exact ⟨rfl⟩
  | step => exact hmove _ _ _ _ rfl
  | set =>
    unfold State.moveTime State.applySet
    dsimp only
    split
    · exact ⟨by simp [State.moveEvidence]⟩
    · exact hmove _ _ _ _ (by simp [State.placeCounter])

theorem State.demanded_att : (s.demanded sec).att = { (s.moved sec).att with stepHeld := (s.demanded sec).att.stepHeld } := by
  have hstated : (s.stated sec).att = (s.moved sec).att := by simp [State.stated]
  rw [← hstated, State.demanded, State.holdDemand]
  split <;> rfl

theorem State.workOf_att : (s.workOf sec).att = { s.att with
    worstState := s.att.worstState.worse (s.workOf sec).du.state
    worstCls := s.att.worstCls.worse (s.workOf sec).du.cls
    eMax := max s.att.eMax (s.workOf sec).du.e
    servoSeconds := if servoSecond s.du.state (s.du.state.after sec.cause) then min 65535 (s.att.servoSeconds + 1)
      else s.att.servoSeconds
    theta := if servoSecond s.du.state (s.du.state.after sec.cause) then some (takeTheta s.att.theta sec.theta)
      else s.att.theta
    leap := if sec.correct then sec.seen.leap else s.att.leap
    quality := if sec.correct then sec.seen.quality else s.att.quality
    accuracy := if sec.correct then sec.seen.accuracy else s.att.accuracy
    stepHeld := (s.workOf sec).att.stepHeld, nextBoundary := (s.workOf sec).att.nextBoundary
    chk0 := (s.workOf sec).att.chk0, chk1 := (s.workOf sec).att.chk1 } := by
  have hmoved := (State.moveTime_keepsPeriod (s.planned sec) sec s.du.cls (s.moveOf sec)).att
  have hatt : (s.adopted sec).att = { s.att with
      stepHeld := (s.adopted sec).att.stepHeld, nextBoundary := (s.adopted sec).att.nextBoundary
      chk0 := (s.adopted sec).att.chk0, chk1 := (s.adopted sec).att.chk1 } := by
    have hsame : (s.adopted sec).att = (s.demanded sec).att := by simp [State.adopted, State.classed]
    rw [hsame, s.demanded_att, show (s.moved sec).att = _ from hmoved]
    rfl
  have hdu : (s.adopted sec).du = (s.workOf sec).du := by simp [s.workOf_eq]
  rw [← hdu, s.workOf_eq]
  generalize s.adopted sec = u at hatt
  cases servoSecond s.du.state (s.du.state.after sec.cause) <;> cases hc : sec.correct <;>
    simp only [State.handSecond, State.handServo, State.handReference, State.handOver, hc, if_true, if_false,
      Bool.false_eq_true] <;> rw [hatt] <;> rfl

theorem State.workOf_frame : s.workOf sec = { s with
    tb := (s.workOf sec).tb, du := (s.workOf sec).du, clock := (s.workOf sec).clock, sqm := (s.workOf sec).sqm
    atu := (s.workOf sec).atu, att := (s.workOf sec).att, prt := (s.workOf sec).prt, ep := (s.workOf sec).ep
    wire := (s.workOf sec).wire, draws := (s.workOf sec).draws } := by
  have hsame := s.workOf_same sec
  have hlines := (s.workOf_rest sec).2.1
  generalize s.workOf sec = t at hsame hlines
  obtain ⟨h1, h2, h3, h4, h5, h6, h7, h8, h9⟩ := hsame
  cases t
  subst h1 h2 h3 h4 h5 h6 h7 h8 h9 hlines
  rfl

end

/-! ## The action instant of a second (R26, R36) -/

/-- The part at the action instant of its oldest judged second, which is judged no more. -/
abbrev State.atSecond (s : State) (rest : List Second) : State := { s with du := { s.du with judged := rest } }

theorem State.actOn_of_steady {s : State} {sec : Second} (h1 : s.moveOf sec ≠ .step) (h2 : s.moveOf sec ≠ .set) :
    s.actOn sec = s.workOf sec := if_neg (by rintro (h | h); exacts [h1 h, h2 h])

theorem State.actOn_of_evidenceDone {s : State} (h : s.evidenceDone) (sec : Second) : s.actOn sec = s.workOf sec := by
  have hjudge : s.settleJudge = s := if_neg (by simp [h.2])
  have hsettle (v : State) : s.settleAdvance v = s := by simp [State.settleAdvance, hjudge, h.1]
  simp only [State.actOn, hsettle, ite_self]

theorem State.actOn_state (s : State) (sec : Second) : (s.actOn sec).du.state = s.du.state.after sec.cause := by
  unfold State.actOn
  dsimp only
  split
  · have hdu : (s.settleAdvance (s.workOf sec)).du = s.du := by simp
    rw [State.workOf_du]
    exact congrArg (fun du : DU => du.state.after sec.cause) hdu
  · rw [State.workOf_du]
    rfl

section
variable {s : State} {sec : Second} {rest : List Second} (hs : s.acts sec rest)
include hs

theorem exec_actionInstant_of_acts : exec .actionInstant s = .next ((s.atSecond rest).actOn sec).reading := by
  obtain ⟨hr, hj, hlt⟩ := hs
  have hdue : s.actionDue = true := by simp [State.actionDue, hj, hlt]
  refine (ticked_of_ready hr _).trans (congrArg _ ((if_pos hdue).trans ?_))
  simp only [State.takeAction, hj]

end

end Sys2Proof.Machine
end

section
/-! Action instants and the servo (O19, O20, O22). -/

namespace Sys2Proof.Machine

open Sys2Proof

/-! ## The step gate and the move (R10, R11, R14, R15) -/

theorem State.gateOpen_iff (s : State) : s.gateOpen = true ↔ s.gateConditions := by
  have hgroups : s.noAuction = true ↔ ∀ g : Fin 64, (s.group g).phase ≠ .call ∧ (s.group g).phase ≠ .closing := by
    simp only [State.noAuction, allGroups, List.all_eq_true, List.mem_finRange, true_imp_iff, Bool.not_eq_true',
      Bool.eq_false_iff, ne_eq, Group.running_iff, not_or]
  have hlines : s.lines.allB (fun l => !l.opened) = true ↔ ∀ l : Fin 4, (s.line l).opened = false := by
    rw [Quad.allB_iff]
    simp only [Bool.not_eq_true']
    rfl
  simp only [State.gateOpen, Bool.and_eq_true, hgroups, hlines, List.isEmpty_iff, bne_iff_ne, and_assoc]

/-- The states in which a good second of the reference runs the servo. -/
abbrev DState.tracks (st : DState) : Prop := st = .locked ∨ st = .suspect ∨ st = .reacquiring

theorem DState.after_of_tracks {st : DState} (h : st.tracks) : st.after .goodConsistent = .locked ∧ st ≠ .acquiring := by
  rcases h with rfl | rfl | rfl <;> decide

section
variable {s : State} {sec : Second} (hc : sec.cause = .goodConsistent) (hst : s.du.state.tracks)
include hc hst

theorem State.moveOf_of_tracks : s.moveOf sec = s.stepMove sec := by
  obtain ⟨hafter, hne⟩ := DState.after_of_tracks hst
  simp only [State.moveOf, hc, hafter, hne, false_and, if_false, if_true]

/-- At or below the threshold a demand that waits is withdrawn. -/
theorem State.moveOf_of_small (h : sec.theta.natAbs ≤ s.du.steering.threshold) :
    s.moveOf sec = if s.tb.demand.isSome then .withdraw else .keep := by
  rw [State.moveOf_of_tracks hc hst, State.stepMove, if_neg (not_lt.2 h)]
  cases s.tb.demand <;> simp

theorem State.moveOf_of_never (hd : s.tb.demand = none) (hn : s.du.steering.never = true) : s.moveOf sec = .keep := by
  rw [State.moveOf_of_tracks hc hst, State.stepMove, if_neg (by simp [hd, hn])]

section
variable (hbig : s.du.steering.threshold < sec.theta.natAbs) (hdemand : s.tb.demand ≠ none ∨ s.du.steering.never = false)
include hbig hdemand

theorem State.moveOf_of_big :
    s.moveOf sec = if s.gateOpen && !(s.tb.epoch ≥ Config.epochMax && sec.d > 0) then .step else .hold := by
  have hdem : (s.tb.demand.isSome || !s.du.steering.never) = true := by
    rcases hdemand with h | h
    · simp [Option.isSome_iff_ne_none.2 h]
    · simp [h]
  rw [State.moveOf_of_tracks hc hst, State.stepMove, if_pos hdem, if_pos hbig]

theorem State.moveOf_of_shut (h : ¬ s.gateConditions ∨ s.epochHolds sec.d) : s.moveOf sec = .hold := by
  rw [State.moveOf_of_big hc hst hbig hdemand, if_neg]
  rcases h with h | h
  · simp [Bool.eq_false_iff.2 (h ∘ s.gateOpen_iff.1)]
  · simp [h.1, h.2]

theorem State.moveOf_of_open (hg : s.gateConditions) (he : ¬ s.epochHolds sec.d) : s.moveOf sec = .step := by
  have hfree : ¬ (s.tb.epoch ≥ Config.epochMax ∧ sec.d > 0) := he
  rw [State.moveOf_of_big hc hst hbig hdemand, if_pos]
  simp only [s.gateOpen_iff.2 hg, Bool.true_and, ← Bool.decide_and, hfree, decide_false, Bool.not_false]

end

/-- A servo second that steps nothing. -/
theorem State.moveOf_steady (h : sec.theta.natAbs ≤ s.du.steering.threshold ∨ ¬ s.gateConditions ∨ s.epochHolds sec.d
      ∨ (s.tb.demand = none ∧ s.du.steering.never = true)) :
    s.moveOf sec = .keep ∨ s.moveOf sec = .withdraw ∨ s.moveOf sec = .hold := by
  by_cases hsmall : sec.theta.natAbs ≤ s.du.steering.threshold
  · rw [State.moveOf_of_small hc hst hsmall]
    split
    · exact .inr (.inl rfl)
    · exact .inl rfl
  · by_cases hnever : s.tb.demand = none ∧ s.du.steering.never = true
    · exact .inl (State.moveOf_of_never hc hst hnever.1 hnever.2)
    · have hdemand : s.tb.demand ≠ none ∨ s.du.steering.never = false := by
        by_cases hd : s.tb.demand = none
        · exact .inr (Bool.eq_false_iff.2 fun hn => hnever ⟨hd, hn⟩)
        · exact .inl hd
      refine .inr (.inr (State.moveOf_of_shut hc hst (not_le.1 hsmall) hdemand ?_))
      rcases h with h | h | h | h
      · exact absurd h hsmall
      · exact .inl h
      · exact .inr h
      · exact absurd h hnever

end

/-- A second after which DU is not LOCKED withdraws a demand or keeps it (R14). -/
theorem State.moveOf_of_unlocked {s : State} {sec : Second} (h : s.du.state.after sec.cause ≠ .locked) :
    s.moveOf sec = if s.du.state.after sec.cause = .holdover ∨ s.du.state.after sec.cause = .free then .withdraw else .keep := by
  simp only [State.moveOf, h, and_false, if_false]

/-! ## What the move leaves of the counter -/

/-- The counter stands, and only the demand may change. -/
structure TB.StandsAs (b t : TB) : Prop where
  sec : t.sec = b.sec
  ns : t.ns = b.ns
  frac : t.frac = b.frac
  epoch : t.epoch = b.epoch

section
variable {s : State} {sec : Second}

theorem State.workOf_stands (h : s.moveOf sec = .keep ∨ s.moveOf sec = .withdraw ∨ s.moveOf sec = .hold) :
    s.tb.StandsAs (s.workOf sec).tb := by
  have hmoved : s.tb.StandsAs (s.moved sec).tb := by
    rw [State.moved]
    rcases h with h | h | h <;> rw [h] <;> exact ⟨rfl, rfl, rfl, rfl⟩
  rw [s.workOf_tb]
  exact ⟨hmoved.sec, hmoved.ns, hmoved.frac, hmoved.epoch⟩

theorem State.workOf_demand : (s.workOf sec).tb.demand = (s.moved sec).tb.demand := by rw [s.workOf_tb]

theorem State.workOf_demand_of_keep (h : s.moveOf sec = .keep) : (s.workOf sec).tb.demand = s.tb.demand := by
  rw [s.workOf_demand, State.moved, h]
  rfl

theorem State.workOf_demand_of_withdraw (h : s.moveOf sec = .withdraw) : (s.workOf sec).tb.demand = none := by
  rw [s.workOf_demand, State.moved, h]
  rfl

theorem State.workOf_demand_of_hold (h : s.moveOf sec = .hold) :
    (s.workOf sec).tb.demand = some { theta := sec.theta, d := sec.d } := by
  rw [s.workOf_demand, State.moved, h]
  rfl

theorem TB.StandsAs.now {s t : State} (h : s.tb.StandsAs t.tb) : t.now = s.now := by
  rw [State.now, State.now, h.sec, h.ns, h.epoch]

end

/-- INC is the one that C gives after a second's work (R4). -/
theorem State.moveTime_inc (s : State) (cls : TraceClass) (sec : Second) (mv : Move) :
    (s.moveTime cls sec mv).tb.inc = s.tb.inc := by
  cases mv with
  | keep | withdraw | hold => rfl
  | step => exact (congrArg TB.inc (State.applyStep_tb _ cls sec)).trans rfl
  | set =>
    refine (congrArg TB.inc (State.applySet_tb _ cls sec)).trans ?_
    split <;> rfl

theorem State.workOf_inc (s : State) (sec : Second) : (s.workOf sec).tb.inc = incOf (s.workOf sec).du.c := by
  rw [s.workOf_tb, s.workOf_du]
  exact State.moveTime_inc ..

/-! ## The servo (R6) -/

theorem servo_cases (st : Steering) (i theta : Int) :
    let iTent := clamp (i + roundDiv theta (2 ^ st.k)) st.limit
    let cTent := -(roundDiv theta (2 ^ st.p) + iTent)
    (cTent.natAbs ≤ st.limit → servo st i theta = (iTent, cTent))
      ∧ (st.limit < cTent.natAbs →
          servo st i theta = (i, if cTent > 0 then (st.limit : Int) else -(st.limit : Int))) :=
  ⟨fun h => if_pos h, fun h => if_neg (not_le.2 h)⟩

/-- I, C and E of a servo second that neither steps nor sets. -/
theorem State.duAfter_of_servo {s : State} {sec : Second} {mv : Move} (h : s.du.state.after sec.cause = .locked)
    (hmv : mv = .keep ∨ mv = .withdraw ∨ mv = .hold) :
    ((s.duAfter sec mv).i, (s.duAfter sec mv).c) = servo s.du.steering s.du.i sec.theta
      ∧ (s.duAfter sec mv).e = min 4000000000 (sec.theta.natAbs + max sec.accuracy s.du.limits.floor) := by
  rcases hmv with rfl | rfl | rfl <;> simp only [State.duAfter, State.ratesAfter, State.errorAfter, h, true_and] <;> rfl

/-! ## A demand that is held (R13) -/

theorem Instant.ofTotal_total (n : Int) :
    ((Instant.ofTotal n).sec : Int) * 1000000000 + ((Instant.ofTotal n).ns : Int) = n % counterRound := by
  simp only [Instant.ofTotal, Config.second, Config.secondsWrap, counterRound]
  omega

theorem Instant.ofTotal_ns (n : Int) : (Instant.ofTotal n).ns < 1000000000 := Nat.mod_lt _ (by decide)

theorem State.position_eq (s : State) : s.position = (s.instant.total : Int) := by
  simp only [State.position, State.instant, Instant.total, Config.second]
  push_cast
  rfl

theorem State.movedBy_total (s : State) (d : Int) :
    ((s.movedBy d).sec : Int) * 1000000000 + ((s.movedBy d).ns : Int) = (s.position - d) % counterRound := by
  rw [s.position_eq]
  exact Instant.ofTotal_total _

theorem State.heldTime_total (s : State) (d : Int) :
    ((s.heldTime d).sec : Int) * 1000000000 + ((s.heldTime d).ns : Int) = (s.position - d) % counterRound := by
  rw [← s.movedBy_total d, State.heldTime]
  split <;> rfl

theorem State.heldRecord_holds {u : State} {body : Body} (hb : body.isClock 7 = true) (h : u.lacks (Body.isClock 7)) (n : Nat) :
    State.holds { (u.notify .stepHeld).handHeld.createNow body with draws := n } u.now u.du.cls body := by
  have hlacks : (u.notify .stepHeld).handHeld.lacks (Body.isClock 7) := h
  exact State.create_holds (isClass_isClock 7) hb hlacks u.now u.du.cls

section
variable {s : State} {sec : Second} (hmv : s.moveOf sec = .hold) (hd : s.tb.demand = none)
include hmv hd

theorem State.demanded_of_newly : s.demanded sec = { ((s.stated sec).notify .stepHeld).handHeld.createNow
    (.clock sec.theta sec.latch (.held (s.stated sec).now ((s.stated sec).heldTime sec.d) sec.d (decide (sec.d > 0)))) with
      draws := (s.stated sec).draws + 1 } := by
  have hnewly : s.newlyHeld sec = true := by simp [State.newlyHeld, hmv, hd]
  rw [State.demanded, hnewly]
  rfl

theorem State.workOf_held : (s.workOf sec).prt.notice.getLsbD 8 = true ∧ (s.workOf sec).att.stepHeld = true := by
  have hsignals : (s.demanded sec).Signals (s.workOf sec) :=
    ((State.classChanged_signals _ s.du.cls _ _).trans (State.adoptOffset_signals _ sec)).trans
      (State.handSecond_signals _ _ sec)
  have hnew := State.demanded_of_newly hmv hd
  refine ⟨hsignals.notice 8 ?_, ?_⟩
  · rw [hnew]
    exact State.notifyIf_notice (b := true) (c := .stepHeld) rfl
  · have hatt : (s.adopted sec).att.stepHeld = (s.demanded sec).att.stepHeld := by simp [State.adopted, State.classed]
    have hhand (u : State) (servo : Bool) : (u.handSecond servo sec).att.stepHeld = u.att.stepHeld := by
      unfold State.handSecond
      dsimp only
      split <;> split <;> rfl
    rw [s.workOf_eq, hhand, hatt, hnew]
    rfl

theorem State.workOf_heldRecord (hw : ¬ s.waits 7) : ∃ e ∈ (s.workOf sec).sqm.agenda, ∃ new : Stamp, e.stamp = s.now
    ∧ e.body = .clock sec.theta sec.latch (.held s.now new sec.d (decide (sec.d > 0)))
    ∧ (new.sec : Int) * 1000000000 + (new.ns : Int) = (s.position - sec.d) % counterRound := by
  have hnow : (s.stated sec).now = s.now ∧ (s.stated sec).position = s.position := by
    have htb : (s.stated sec).tb = (s.moved sec).tb := by simp [State.stated]
    rw [State.now, State.position, htb, State.moved, hmv]
    exact ⟨rfl, rfl⟩
  have hearlier : s.KeepsClass (Body.isClock 7) (s.stated sec) :=
    (s.moved_keepsClock sec (by decide) (by decide)).trans (State.stateChanged_keepsClock (by decide) _ s.du.state sec)
  have hlater : (s.demanded sec).KeepsClass (Body.isClock 7) (s.workOf sec) :=
    ((State.classChanged_keepsClass (by decide) _ s.du.cls _ _).trans (State.adoptOffset_keepsClock (by decide) _ sec)).trans
      (.of_agenda (by rw [s.workOf_sqm]; rfl))
  have hrecord : (s.demanded sec).holds (s.stated sec).now (s.stated sec).du.cls (.clock sec.theta sec.latch
      (.held (s.stated sec).now ((s.stated sec).heldTime sec.d) sec.d (decide (sec.d > 0)))) := by
    rw [State.demanded_of_newly hmv hd]
    exact State.heldRecord_holds rfl (hearlier.lacks (State.lacks_of_not_waits hw)) _
  obtain ⟨e, he, hstamp, -, -, hbody⟩ := hlater.holds rfl hrecord
  rw [hnow.1] at hstamp hbody
  exact ⟨e, he, _, hstamp, hbody, by rw [State.heldTime_total, hnow.2]⟩

end

/-- Settles O22: a second that leaves LOCKED or comes outside it, then a servo second by its move. -/
theorem stepHeldOrWithdrawn : Obligations.StepHeldOrWithdrawn := by
  refine ⟨fun s sec rest hs => ?_, fun s sec rest hs hc hst => ?_⟩
  · refine ⟨_, exec_actionInstant_of_acts hs, ?_⟩
    have hstate := (s.atSecond rest).actOn_state sec
    by_cases hl : s.du.state.after sec.cause = .locked
    · have hlocked : ((s.atSecond rest).actOn sec).reading.du.state = .locked := hstate.trans hl
      simp only [hlocked, reduceCtorEq, or_self, false_imp_iff, and_self]
    · have hmv := State.moveOf_of_unlocked (s := s.atSecond rest) hl
      have hact : (s.atSecond rest).actOn sec = (s.atSecond rest).workOf sec := by
        refine State.actOn_of_steady ?_ ?_ <;> rw [hmv] <;> split <;> simp
      refine ⟨fun h => ?_, fun h => ?_⟩
      · have hleaves : s.du.state.after sec.cause = .holdover ∨ s.du.state.after sec.cause = .free := by rwa [← hstate]
        rw [hact]
        exact State.workOf_demand_of_withdraw (hmv.trans (if_pos hleaves))
      · have hkeeps : ¬ (s.du.state.after sec.cause = .holdover ∨ s.du.state.after sec.cause = .free) := by
          have hst : s.du.state.after sec.cause = .suspect ∨ s.du.state.after sec.cause = .reacquiring
            ∨ s.du.state.after sec.cause = .acquiring := by rwa [← hstate]
          rcases hst with h | h | h <;> simp [h]
        rw [hact]
        exact State.workOf_demand_of_keep (hmv.trans (if_neg hkeeps))
  · refine ⟨_, exec_actionInstant_of_acts hs, fun hsmall => ?_, fun hd hn => ?_, fun hbig hdemand hshut => ?_⟩
    · have hmv := State.moveOf_of_small (s := s.atSecond rest) hc hst hsmall
      have hact : (s.atSecond rest).actOn sec = (s.atSecond rest).workOf sec := by
        refine State.actOn_of_steady ?_ ?_ <;> rw [hmv] <;> split <;> simp
      rw [hact]
      by_cases hd : s.tb.demand.isSome
      · have hw : (s.atSecond rest).moveOf sec = .withdraw := hmv.trans (if_pos hd)
        exact ⟨State.workOf_demand_of_withdraw hw, (State.workOf_stands (.inr (.inl hw))).now⟩
      · have hk : (s.atSecond rest).moveOf sec = .keep := hmv.trans (if_neg hd)
        exact ⟨(State.workOf_demand_of_keep hk).trans (by simpa using hd), (State.workOf_stands (.inl hk)).now⟩
    · have hk := State.moveOf_of_never (s := s.atSecond rest) hc hst hd hn
      rw [State.actOn_of_steady (by simp [hk]) (by simp [hk])]
      exact ⟨(State.workOf_demand_of_keep hk).trans hd, (State.workOf_stands (.inl hk)).now⟩
    · have hh := State.moveOf_of_shut (s := s.atSecond rest) hc hst hbig hdemand hshut
      rw [State.actOn_of_steady (by simp [hh]) (by simp [hh])]
      refine ⟨State.workOf_demand_of_hold hh, (State.workOf_stands (.inr (.inr hh))).now, fun hd => ?_⟩
      obtain ⟨hnotice, hatt⟩ := State.workOf_held (s := s.atSecond rest) hh hd
      exact ⟨hnotice, hatt, State.workOf_heldRecord (s := s.atSecond rest) hh hd⟩

end Sys2Proof.Machine

namespace Sys2Proof

open Sys2Proof.Machine

/-- Settles O20: such a second's move leaves the counter, and DU's values are the servo's. -/
theorem servoSecond : Obligations.ServoSecond := by
  intro s sec rest hs hc hst h iTent cTent
  have hmv : (s.atSecond rest).moveOf sec = .keep ∨ (s.atSecond rest).moveOf sec = .withdraw
      ∨ (s.atSecond rest).moveOf sec = .hold := State.moveOf_steady (s := s.atSecond rest) hc hst h
  have hact : (s.atSecond rest).actOn sec = (s.atSecond rest).workOf sec := by
    refine State.actOn_of_steady ?_ ?_ <;> rcases hmv with h | h | h <;> simp [h]
  have hafter : s.du.state.after sec.cause = .locked := hc ▸ (DState.after_of_tracks hst).1
  obtain ⟨hservo, he⟩ := State.duAfter_of_servo (s := s.atSecond rest) hafter hmv
  rw [← State.workOf_du] at hservo he
  obtain ⟨hin, hout⟩ := servo_cases s.du.steering s.du.i sec.theta
  have hstands := State.workOf_stands hmv
  refine ⟨((s.atSecond rest).workOf sec).reading, hact ▸ exec_actionInstant_of_acts hs, ?_, fun hle => ?_, fun hlt => ?_,
    State.workOf_inc .., hstands.sec, hstands.ns, hstands.frac, hstands.epoch, he⟩
  · exact (congrArg DU.state (State.workOf_du ..)).trans hafter
  · obtain ⟨hi, hcr⟩ := Prod.ext_iff.1 (hservo.trans (hin hle))
    exact ⟨hcr, hi⟩
  · obtain ⟨hi, hcr⟩ := Prod.ext_iff.1 (hservo.trans (hout hlt))
    exact ⟨hi, hcr⟩

end Sys2Proof
end

section
/-! The action instant as a whole (O19), and the seconds that come of own time (O24). -/

namespace Sys2Proof.Machine

open Sys2Proof

/-! ## What commands that read find (R2, R36) -/

theorem State.acted_of_none {s : State} (h : s.actionDue = false) : s.acted = s.reading := by simp [State.acted, h]

theorem State.left_of_none {s : State} (ha : s.actionDue = false) (hm : s.missingDue = false) (hh : s.holdoverDue = false) :
    s.left = s.reading := by simp [State.left, State.done, State.workDue, ha, hm, hh]

section
variable {s : State} {sec : Second} (hs : s.acts sec [])
include hs

theorem State.takeAction_reading : s.takeAction.reading = s.takeAction := by
  have htake : s.takeAction = ((s.atSecond []).actOn sec).reading := by simp only [State.takeAction, hs.2.1]
  rw [htake]
  rfl

theorem State.acted_of_acts : s.acted = s.takeAction := by
  have hclose : s.closeActions = s.takeAction := by
    rw [State.closeActions, hs.2.1]
    exact if_pos (State.actionDue_of_acts hs)
  rw [State.acted, if_pos (State.actionDue_of_acts hs), hclose, State.takeAction_reading hs]

theorem State.left_of_acts (hm : s.takeAction.missingDue = false) (hh : s.takeAction.holdoverDue = false) :
    s.left = s.takeAction := by
  have hdue : s.workDue = true := s.workDue_iff.2 (.inl (State.actionDue_of_acts hs))
  rw [State.left, State.done, if_pos hdue, State.work_of_acts hs hm hh, State.takeAction_reading hs]

end

/-! ## DU after a second (R8, R17, R35, R40, R42) -/

section
variable (s : State) (sec : Second) (mv : Move)

theorem State.duAfter_of_suspect (h : s.du.state.after sec.cause = .suspect) :
    (s.duAfter sec mv).i = s.du.i ∧ (s.duAfter sec mv).c = s.du.c ∧ (s.duAfter sec mv).e =
      if s.du.state = .locked then min 4000000000 (s.du.e + s.du.limits.rate) else s.du.e := by
  simp only [State.duAfter, State.ratesAfter, State.errorAfter, h, true_and]
  rfl

theorem State.duAfter_of_growing (h : s.du.state.after sec.cause = .holdover ∨ s.du.state.after sec.cause = .reacquiring) :
    (s.duAfter sec mv).i = s.du.i ∧ (s.duAfter sec mv).c = -s.du.i ∧ (s.duAfter sec mv).e = s.du.e := by
  rcases h with h | h <;> simp only [State.duAfter, State.ratesAfter, State.errorAfter, h, and_self]

theorem State.duAfter_of_free (h : s.du.state.after sec.cause = .free ∨ s.du.state.after sec.cause = .acquiring) :
    (s.duAfter sec mv).i = s.du.i ∧ (s.duAfter sec mv).c = 0 ∧ (s.duAfter sec mv).e = 4000000000 := by
  rcases h with h | h <;> simp only [State.duAfter, State.ratesAfter, State.errorAfter, h, true_and, Config.errorMax]

theorem State.duAfter_of_set (h : s.du.state.after sec.cause = .locked) :
    (s.duAfter sec .set).i = 0 ∧ (s.duAfter sec .set).c = 0
      ∧ (s.duAfter sec .set).e = min 4000000000 (max sec.accuracy s.du.limits.floor) := by
  simp only [State.duAfter, State.ratesAfter, State.errorAfter, h, true_and, Config.errorMax]

end

theorem SecondCause.good_iff (c : SecondCause) : c.good = true ↔ c = .goodConsistent ∨ c = .goodInconsistent := by
  simp [SecondCause.good]

theorem servoSecond_iff (old new : DState) : Machine.servoSecond old new = true ↔ new = .locked ∧ old ≠ .acquiring := by
  simp [Machine.servoSecond]

/-- Settles O19: what the stages of the second's work leave, put together. -/
theorem actionInstant : Obligations.ActionInstant := by
  refine ⟨fun s h => ⟨State.acted_of_none h, State.left_of_none h⟩, fun s t sec hs ht => ?_, fun s sec rest hs hev => ?_⟩
  · rw [exec_actionInstant hs] at ht
    obtain rfl : s.takeAction = t := Host.Outcome.next.inj ht
    exact ⟨State.acted_of_acts hs, State.left_of_acts hs⟩
  intro good
  let u := s.atSecond rest
  have hact : u.actOn sec = u.workOf sec := State.actOn_of_evidenceDone (s := u) hev sec
  have hdu : (u.workOf sec).du = u.duAfter sec (u.moveOf sec) := u.workOf_du sec
  have hstate : (u.workOf sec).du.state = s.du.state.after sec.cause := by rw [hdu]; rfl
  refine ⟨(u.workOf sec).reading, hact ▸ exec_actionInstant_of_acts hs, ?_, fun h => ?_, fun h => ?_, fun h => ?_,
    fun h h' => ?_, u.workOf_inc sec, ?_, fun h => ?_, fun h => ?_, ?_, fun h hw => ?_, ?_, ?_, ?_⟩
  · refine hstate.trans ?_
    simp only [good]
    generalize sec.cause = c
    cases s.du.state <;> cases c <;> rfl
  · show _ = _ ∧ _ = _ ∧ _ = _
    exact hdu ▸ u.duAfter_of_suspect sec _ (hstate.symm.trans h)
  · exact hdu ▸ u.duAfter_of_growing sec _ (by rwa [← hstate])
  · exact hdu ▸ u.duAfter_of_free sec _ (by rwa [← hstate])
  · have hmv : u.moveOf sec = .set := if_pos ⟨h', hstate.symm.trans h⟩
    have hset := u.duAfter_of_set sec (hstate.symm.trans h)
    rw [← hmv, ← hdu] at hset
    exact ⟨hset.1, hset.2.1⟩
  · show (u.workOf sec).du.cls = if (u.workOf sec).du.state = .free ∨ (u.workOf sec).du.state = .acquiring then _ else
      if (u.workOf sec).du.e ≤ _ then _ else _
    rw [hdu]
    rfl
  · exact u.workOf_stateChanged sec (hstate ▸ h)
  · exact u.workOf_classChanged sec h
  · refine (congrArg TB.utcOffset (u.workOf_tb sec)).trans ?_
    have hgood : (sec.cause.good = true ∧ u.du.state.after sec.cause = .locked)
        ↔ (good ∧ (u.workOf sec).du.state = .locked) := by rw [SecondCause.good_iff, hstate]
    rw [show (u.moved sec).tb.utcOffset = s.tb.utcOffset from State.moveTime_utcOffset ..]
    simp only [hgood]
    rfl
  · exact u.workOf_offset sec h hw
  · intro servo
    have hservo : Machine.servoSecond u.du.state (u.du.state.after sec.cause) = true ↔ servo := by
      rw [servoSecond_iff]
      exact and_congr_left fun _ => by rw [← hstate]; rfl
    refine (u.workOf_att sec).trans ?_
    simp only [hservo]
    rfl
  · exact hdu ▸ rfl
  · exact (congrArg State.reading (u.workOf_frame sec)).trans rfl

/-! ## A second that brings no marker (R30, R32, R34) -/

/-- A bad second's work moves no counter and holds no demand. -/
theorem State.workOf_bad {s : State} {sec : Second} (h : s.moveOf sec = .withdraw ∨ s.moveOf sec = .keep) :
    s.workOf sec = { s with
      tb := (s.workOf sec).tb, du := (s.workOf sec).du, sqm := (s.workOf sec).sqm, att := (s.workOf sec).att
      prt := (s.workOf sec).prt, ep := (s.workOf sec).ep, wire := (s.workOf sec).wire } := by
  have hnew : s.newlyHeld sec = false := by rcases h with h | h <;> simp [State.newlyHeld, h]
  have hmoved : (s.moved sec).clock = s.clock ∧ (s.moved sec).atu = s.atu := by
    rw [State.moved]
    rcases h with h | h <;> rw [h] <;> exact ⟨rfl, rfl⟩
  have hdraws : (s.workOf sec).draws = s.draws := by
    simp [State.workOf_eq, State.adopted, State.classed, State.demanded, hnew, State.holdDemand, State.stated, State.moved,
      State.planned, State.setInc]
  obtain ⟨hclock, -, hatu⟩ := s.workOf_rest sec
  refine (s.workOf_frame sec).trans ?_
  rw [hclock, hatu, hdraws, hmoved.1, hmoved.2]

theorem DState.locked_of_suspect {st : DState} (h : st.after .missing = .suspect) : st = .locked := by
  cases st <;> simp_all [DState.after]

/-- DU after a MISSING second has been counted (R30, R32, R34). -/
def State.missedDU (s : State) : DU := { s.du with
  present := false
  missingAt := some (s.clock.own + 1000000000 * 4294967296)
  expected := s.du.expected.map (· + 1)
  goodRun := 0
  badRun := min 65535 (s.du.badRun + 1) }

/-- The MISSING second of such a part. -/
def State.missedSecond (s : State) : Second := badSecond .missing none s.missedDU false s.clock.period

theorem State.missingSecond_eq (s : State) :
    s.missingSecond = (State.actOn { s with du := s.missedDU } s.missedSecond).reading := rfl

section
variable (u : State)

theorem State.moveOf_missed : State.moveOf { u with du := u.missedDU } u.missedSecond =
    if u.du.state = .locked then .keep else .withdraw := by
  have hmove : State.moveOf { u with du := u.missedDU } u.missedSecond =
      if u.du.state = .acquiring ∧ u.du.state.after .missing = .locked then .set
      else if u.du.state.after .missing = .locked then State.stepMove { u with du := u.missedDU } u.missedSecond
      else if u.du.state.after .missing = .holdover ∨ u.du.state.after .missing = .free then .withdraw
      else .keep := rfl
  rw [hmove]
  cases u.du.state <;> rfl

/-- The bad-second column (R8, R40, R42). -/
theorem State.duAfter_missed (mv : Move) :
    let du := State.duAfter { u with du := u.missedDU } u.missedSecond mv
    du.i = u.du.i
      ∧ (du.c = match u.du.state with
        | .free => 0 | .acquiring => 0 | .locked => u.du.c
        | .suspect => -u.du.i | .holdover => -u.du.i | .reacquiring => -u.du.i)
      ∧ du.e = match u.du.state with
        | .free => 4000000000 | .acquiring => 4000000000
        | .locked => min 4000000000 (u.du.e + u.du.limits.rate)
        | .suspect => u.du.e | .holdover => u.du.e | .reacquiring => u.du.e := by
  let v : State := { u with du := u.missedDU }
  have hafter : v.du.state.after u.missedSecond.cause = u.du.state.after .missing := rfl
  cases hst : u.du.state <;> rw [hst] at hafter
  case free | acquiring => exact v.duAfter_of_free u.missedSecond mv (.inl hafter)
  case locked =>
    obtain ⟨hi, hc, he⟩ := v.duAfter_of_suspect u.missedSecond mv hafter
    exact ⟨hi, hc, he.trans (if_pos hst)⟩
  case suspect | holdover | reacquiring => exact v.duAfter_of_growing u.missedSecond mv (.inl hafter)

/-- A fresh entry to HOLDOVER starts its count (R41). -/
theorem State.duAfter_of_entry {s : State} {sec : Second} (mv : Move)
    (h : holdoverEntry s.du.state (s.du.state.after sec.cause) = true) :
    (s.duAfter sec mv).eBase = (s.duAfter sec mv).e ∧ (s.duAfter sec mv).holdCount = 0
      ∧ (s.duAfter sec mv).holdNext = s.clock.own + 1000000000 * 4294967296 := ⟨if_pos h, if_pos h, if_pos h⟩

theorem State.missing_eq : u.missingSecond = (State.workOf { u with du := u.missedDU } u.missedSecond).reading := by
  rw [State.missingSecond_eq, State.actOn_of_steady] <;> rw [u.moveOf_missed] <;> split <;> simp

end

/-- Settles O24: a MISSING second by the bad-second column, a holdover second by the class it leaves. -/
theorem missingAndHoldover : Obligations.MissingAndHoldover := by
  refine ⟨fun s at_ hr hat hle => ?_, fun s hr hst hle => ?_⟩
  · intro u
    let v : State := { u with du := u.missedDU }
    let sec := u.missedSecond
    have hexec : exec .missingMarkerExpiry s = .next u.missingSecond := by
      refine (ticked_of_ready hr _).trans (congrArg _ (if_pos ?_))
      simp [State.missingDue, hat, hle]
    have hmv : v.moveOf sec = if u.du.state = .locked then .keep else .withdraw := u.moveOf_missed
    have hdu : (v.workOf sec).du = v.duAfter sec (v.moveOf sec) := v.workOf_du sec
    have hstate : (v.workOf sec).du.state = u.du.state.after .missing := by rw [hdu]; rfl
    have hsteady : v.moveOf sec = .withdraw ∨ v.moveOf sec = .keep := by
      rw [hmv]
      split
      · exact .inr rfl
      · exact .inl rfl
    refine ⟨u.missingSecond, hexec, ?_⟩
    rw [u.missing_eq]
    obtain ⟨hi, hc, he⟩ := u.duAfter_missed (v.moveOf sec)
    refine ⟨?_, (congrArg DU.i hdu).trans hi, (congrArg DU.c hdu).trans hc, v.workOf_inc sec, (congrArg DU.e hdu).trans he,
      fun h => ?_, (State.workOf_stands (s := v) ?_).now, ?_, hdu ▸ rfl, ?_⟩
    · refine hstate.trans ?_
      cases u.du.state <;> rfl
    · have hentry : holdoverEntry v.du.state (v.du.state.after sec.cause) = true := by
        show holdoverEntry u.du.state (u.du.state.after .missing) = true
        rcases h with h | h <;> rw [h] <;> rfl
      obtain ⟨hbase, hcount, hnext⟩ := State.duAfter_of_entry (s := v) (sec := sec) (v.moveOf sec) hentry
      have hsame : (v.duAfter sec (v.moveOf sec)).e = u.du.e := by rcases h with h | h <;> exact he.trans (by rw [h])
      rw [← hdu] at hbase hcount hnext hsame
      exact ⟨hbase.trans hsame, hcount, hnext⟩
    · exact hsteady.symm.imp id .inl
    · by_cases hl : u.du.state = .locked
      · exact (State.workOf_demand_of_keep (s := v) (hmv.trans (if_pos hl))).trans
          (if_pos (hstate.trans (by rw [hl]; rfl))).symm
      · exact (State.workOf_demand_of_withdraw (s := v) (hmv.trans (if_neg hl))).trans
          (if_neg fun h => hl (DState.locked_of_suspect (hstate.symm.trans h))).symm
    · exact (congrArg State.reading (State.workOf_bad hsteady)).trans rfl
  · intro e cls du v
    let s1 : State := { s with du := du }
    have hcls : classOf s.du.state (satAdd Config.errorMax s.du.eBase (s.du.limits.rate * (s.du.holdCount + 1)))
        s.du.limits.divergence = cls := by
      rcases hst with h | h <;> rw [classOf, if_neg (by simp [h])] <;> rfl
    let t := (s1.classChanged s.du.cls v.now v.du.cls).handOver
    have hholdover : s.holdoverSecond = if cls = s.du.cls then t else t.acted := by
      simp only [State.holdoverSecond, hcls]
      rfl
    have hdue : s.holdoverDue = true := by simpa [State.holdoverDue, hle] using hst
    refine ⟨t, ?_, by simp [t, s1], by simp [t, s1, du, State.handOver], fun h => ?_, fun h => ?_, ?_⟩
    · exact (ticked_of_ready hr _).trans (congrArg _ ((if_pos hdue).trans hholdover))
    · have hsame : s1.classChanged s.du.cls v.now v.du.cls = s1 := if_neg fun hc => hc h
      simp only [t, hsame]
      rfl
    · have hchanged : s1.classChanged s.du.cls v.now v.du.cls = (s1.create v.now v.du.cls 255 false false
          (.clock s.du.lastOffset none (.trace s.du.cls cls e s.du.limits.divergence))).notify .traceChange := if_pos h
      simp only [t, hchanged]
      refine ⟨State.notifyIf_notice (b := true) (c := .traceChange) rfl, fun hw => ?_⟩
      exact State.create_holds (isClass_isClock 5) rfl (State.lacks_of_not_waits (s := s) hw) _ _
    · simp only [t]
      unfold State.classChanged
      split <;> rfl

end Sys2Proof.Machine
end

section
/-! Groups and alarms at a counter that is moved (R19, R113 to R115, R120). -/

namespace Sys2Proof.Machine

open Sys2Proof

/-! ## Folds that change each entry once -/

/-- A fold over distinct entries changes entry `a` at one place, and keeps of it what `R` says around that. -/
theorem foldl_around {α : Type} {R : State → State → Prop} {f : State → α → State} {a : α} (hrefl : ∀ s, R s s)
    (htrans : ∀ {s t u}, R s t → R t u → R s u) (hf : ∀ s b, b ≠ a → R s (f s b)) {l : List α} (hn : l.Nodup) (ha : a ∈ l)
    (s : State) : ∃ v, R s v ∧ R (f v a) (l.foldl f s) := by
  have hfold (l : List α) (hl : a ∉ l) (s : State) : R s (l.foldl f s) := by
    induction l generalizing s with
    | nil => exact hrefl s
    | cons b l ih =>
      obtain ⟨hab, hal⟩ := not_or.1 (hl ∘ List.mem_cons.2)
      exact htrans (hf s b (Ne.symm hab)) (ih hal _)
  obtain ⟨l1, l2, rfl⟩ := List.append_of_mem ha
  obtain ⟨-, hn2, hdisj⟩ := List.nodup_append.1 hn
  refine ⟨l1.foldl f s, hfold l1 (fun h => hdisj a h a (List.mem_cons_self ..) rfl) s, ?_⟩
  rw [List.foldl_append]
  exact hfold l2 (List.nodup_cons.1 hn2).1 _

/-! ## The records of one alarm -/

/-- An ALARM record of alarm `a`. -/
def Body.isAlarm (a : Fin 8) : Body → Bool
  | .alarm i _ => i == a.val
  | _ => false

theorem Body.eq_of_isAlarm {a : Fin 8} {b : Body} (h : b.isAlarm a = true) : ∃ m, b = .alarm a.val m := by
  cases b with
  | alarm i m => exact ⟨m, by rw [show i = a.val by simpa [Body.isAlarm] using h]⟩
  | _ => exact absurd h Bool.false_ne_true

theorem isClass_isAlarm (a : Fin 8) : IsClass (Body.isAlarm a) where
  same w b h := by
    cases w with
    | alarm i m =>
      have hi : i = a.val := by simpa [Body.isAlarm] using h
      cases b <;> simp [Body.sameClass, Body.isAlarm, hi, eq_comm]
    | _ => exact absurd h Bool.false_ne_true
  merge w b := by cases w <;> cases b <;> rfl

theorem isAlarm_of_isGroup (a : Fin 8) (b : Body) (h : b.isGroup = true) : b.isAlarm a = false := by
  cases b with
  | alarm i m => exact absurd h (by simp [Body.isGroup, Body.kindRank])
  | _ => rfl

/-! ## What is kept of a group -/

/-- From `s` to `t` group `g` and its waiting records stay. -/
structure State.GroupKept (g : Fin 64) (s t : State) : Prop where
  group : t.group g = s.group g
  mem : ∀ e : Internal, e.body.isGroup = true → e.group = g.val → (e ∈ t.sqm.agenda ↔ e ∈ s.sqm.agenda)

section
variable {g : Fin 64}

theorem State.GroupKept.refl (s : State) : s.GroupKept g s := ⟨rfl, fun _ _ _ => .rfl⟩

theorem State.GroupKept.trans {s t u : State} (h : s.GroupKept g t) (k : t.GroupKept g u) : s.GroupKept g u :=
  ⟨k.group.trans h.group, fun e he hg => (k.mem e he hg).trans (h.mem e he hg)⟩

theorem Body.clocked_of_isGroup {b : Body} (h : b.isGroup = true) : b.clocked = false := by
  cases b with
  | clock theta marker c => exact absurd h (by simp [Body.isGroup, Body.kindRank])
  | _ => rfl

theorem State.AddsClocks.groupKept {s t : State} (h : s.AddsClocks t) : s.GroupKept g t :=
  ⟨by rw [State.group, State.group, h.atu], fun e he _ => h.mem e (Body.clocked_of_isGroup he)⟩

theorem State.passGroup_groupKept (pre post : Instant) (s : State) {k : Fin 64} (h : k ≠ g) :
    s.GroupKept g (s.passGroup pre post k) := by
  refine ⟨State.passGroup_group_ne pre post s (Ne.symm h), fun e he hg => ⟨fun hm => ?_, (s.passGroup_records pre post k).1 e he⟩⟩
  rcases State.passGroup_mem hm with hm | hk
  · exact hm
  · exact absurd (Fin.ext (hk.symm.trans hg)) h

theorem State.passAlarm_groupKept (pre post : Instant) (s : State) (a : Fin 8) : s.GroupKept g (s.passAlarm pre post a) := by
  refine ⟨State.passAlarm_group pre post s a g, fun e he hg => ⟨fun hm => ?_, State.passAlarm_keeps pre post s a e he⟩⟩
  have hclass := isClass_isAlarm a
  unfold State.passAlarm at hm
  split at hm
  · exact hm
  · split at hm
    · exact (State.mem_create_of_other (p := Body.isAlarm a) hclass.merge
        (fun w hw => by rw [Body.sameClass_symm, hclass.same _ _ (by simp [Body.isAlarm])] at hw; exact hw)
        (by simp [Body.isAlarm]) (isAlarm_of_isGroup a _ he) (s.setAlarm ..) ..).1 hm
    · exact hm

/-- A group with no timer armed has none passed over. -/
theorem State.passTimers_groupKept {s : State} (h : (s.group g).Unarmed) (pre post : Instant) :
    s.GroupKept g (s.passTimers pre post) := by
  have hgroups (l : List (Fin 64)) (t : State) (ht : (t.group g).Unarmed) : t.GroupKept g (l.foldl (State.passGroup pre post) t) := by
    induction l generalizing t with
    | nil => exact .refl t
    | cons k l ih =>
      have hk : t.GroupKept g (t.passGroup pre post k) := by
        by_cases hkg : k = g
        · rw [hkg, State.passGroup_of_unarmed ht]
          exact .refl t
        · exact State.passGroup_groupKept pre post t hkg
      exact hk.trans (ih _ (hk.group ▸ ht))
  have halarms (l : List (Fin 8)) (t : State) : t.GroupKept g (l.foldl (State.passAlarm pre post) t) := by
    induction l generalizing t with
    | nil => exact .refl t
    | cons a l ih => exact (t.passAlarm_groupKept pre post a).trans (ih _)
  exact (hgroups _ s h).trans (halarms _ _)

end

/-! ## What is kept of an alarm -/

/-- From `s` to `t` alarm `a` and its waiting records stay, TB and DU too, and no cause is cleared. -/
structure State.AlarmKept (a : Fin 8) (s t : State) : Prop extends s.KeepsNotices t where
  alarm : t.alarm a = s.alarm a
  records : s.KeepsClass (Body.isAlarm a) t
  tb : t.tb = s.tb
  du : t.du = s.du

section
variable {a : Fin 8}

theorem State.AlarmKept.refl (s : State) : s.AlarmKept a s := ⟨.refl s, rfl, .refl s, rfl, rfl⟩

theorem State.AlarmKept.trans {s t u : State} (h : s.AlarmKept a t) (k : t.AlarmKept a u) : s.AlarmKept a u :=
  ⟨h.toKeepsNotices.trans k.toKeepsNotices, k.alarm.trans h.alarm, h.records.trans k.records, k.tb.trans h.tb,
    k.du.trans h.du⟩

theorem State.passGroup_alarmKept (pre post : Instant) (s : State) (g : Fin 64) : s.AlarmKept a (s.passGroup pre post g) :=
  ⟨.of_prt (by simp), State.passGroup_alarm pre post s g a,
    State.passGroup_keepsClass (isClass_isAlarm a) (isAlarm_of_isGroup a) pre post s g, by simp, by simp⟩

theorem State.passAlarm_keepsNotices (pre post : Instant) (s : State) (b : Fin 8) : s.KeepsNotices (s.passAlarm pre post b) := by
  unfold State.passAlarm
  split
  · exact .refl s
  · exact .ite (.thenNotify (by exact ⟨fun _ => id⟩) _) (.refl s)

theorem State.passAlarm_alarmKept (pre post : Instant) (s : State) {b : Fin 8} (h : b ≠ a) :
    s.AlarmKept a (s.passAlarm pre post b) := by
  have hne (n : Nat) : Body.isAlarm a (.alarm b.val n) = false := by simpa [Body.isAlarm, Fin.ext_iff] using h
  exact ⟨s.passAlarm_keepsNotices pre post b, State.passAlarm_alarm_ne pre post s (Ne.symm h),
    State.passAlarm_keepsClass (isClass_isAlarm a) pre post s b hne, by simp, by simp⟩

/-- Of the timers in the span, alarm `a` is passed over by its own step. -/
theorem State.passTimers_alarm (s : State) (pre post : Instant) :
    ∃ v, s.AlarmKept a v ∧ (v.passAlarm pre post a).AlarmKept a (s.passTimers pre post) := by
  have hgroups (l : List (Fin 64)) (t : State) : t.AlarmKept a (l.foldl (State.passGroup pre post) t) := by
    induction l generalizing t with
    | nil => exact .refl t
    | cons g l ih => exact (t.passGroup_alarmKept pre post g).trans (ih _)
  obtain ⟨v, hv, hpass⟩ := foldl_around (R := State.AlarmKept a) (f := State.passAlarm pre post) (a := a) .refl .trans
    (fun t b hb => t.passAlarm_alarmKept pre post hb) (List.nodup_finRange 8) (List.mem_finRange a)
    (allGroups.foldl (State.passGroup pre post) s)
  exact ⟨v, (hgroups _ s).trans hv, hpass⟩

/-- The instants of an alarm in the skipped span, as the statements count them (R120). -/
theorem Alarm.count_spec (x : Alarm) (post : Instant) :
    let span := x.period * 1000000
    let skipped := (((post.total : Int) - x.next.total) % 281474976710656000000000).toNat
    (x.period = 0 → x.count post = 1)
      ∧ (x.period ≠ 0 → (x.count post - 1) * span ≤ skipped ∧ skipped < x.count post * span) := by
  intro span skipped
  refine ⟨fun h => if_pos h, fun h => ?_⟩
  have hcount : x.count post = skipped / span + 1 := if_neg h
  rw [hcount, Nat.add_sub_cancel]
  refine ⟨Nat.div_mul_le_self _ _, ?_⟩
  rw [Nat.succ_mul]
  exact Nat.lt_div_mul_add (by omega)

theorem State.passAlarm_of_none {v : State} (h : v.alarm a = none) (pre post : Instant) : v.passAlarm pre post a = v := by
  unfold State.passAlarm
  rw [h]

theorem State.passAlarm_of_ahead {v : State} {x : Alarm} (h : v.alarm a = some x) {pre post : Instant}
    (hc : Instant.crossed pre post x.next = false) : v.passAlarm pre post a = v := by
  unfold State.passAlarm
  rw [h]
  exact if_neg (by simp [hc])

end

/-! ## A state whose counter has been moved -/

/-- `u` passes over the timers between the instants of `s` and `t` if the move is forward, and so becomes `t` but for
CLOCK records. -/
structure State.PassesTo (s u t : State) (d : Int) : Prop where
  epoch : t.tb.epoch = u.tb.epoch
  cls : t.du.cls = u.du.cls
  back : ¬ d < 0 → u.AddsClocks t
  forward : d < 0 → (u.passTimers s.instant t.instant).AddsClocks t

theorem State.passesOver_forward {s t : State} {d : Int} (hd : d < 0) (armed : Bool) (i : Instant) :
    s.passesOver t d armed i = passed s.instant t.instant i armed := by simp [State.passesOver, passed, hd]

theorem State.passesOver_back {s t : State} {d : Int} (hd : ¬ d < 0) (armed : Bool) (i : Instant) : s.passesOver t d armed i = false := by
  simp [State.passesOver, hd]

section
variable {s u t : State} {d : Int} (h : s.PassesTo u t d)
include h

/-- What the move does to an alarm that `u` has as `s` has it (R120). -/
theorem State.PassesTo.alarmPassed {a : Fin 8} (ha : u.alarm a = s.alarm a)
    (hl : s.lacks (Body.isAlarm a) → u.lacks (Body.isAlarm a)) : s.alarmPassed t d a := by
  have hatu {v : State} (hv : v.AddsClocks t) : t.alarm a = v.alarm a := by rw [State.alarm, State.alarm, hv.atu]
  obtain ⟨v, hv, hpass⟩ := u.passTimers_alarm (a := a) s.instant t.instant
  have hva : v.alarm a = s.alarm a := hv.alarm.trans ha
  have hforward (hd : d < 0) : t.alarm a = (v.passAlarm s.instant t.instant a).alarm a :=
    (hatu (h.forward hd)).trans hpass.alarm
  unfold State.alarmPassed
  cases hx : s.alarm a with
  | none =>
    show t.alarm a = none
    by_cases hd : d < 0
    · rw [hforward hd, State.passAlarm_of_none (hva.trans hx), hva, hx]
    · rw [hatu (h.back hd), ha, hx]
  | some x =>
    refine ⟨fun hp => ?_, fun hp => ?_⟩
    · by_cases hd : d < 0
      · have hahead : Instant.crossed s.instant t.instant x.next = false := by simpa [State.passesOver, hd] using hp
        rw [hforward hd, State.passAlarm_of_ahead (hva.trans hx) hahead, hva, hx]
      · rw [hatu (h.back hd), ha, hx]
    · obtain ⟨hd, hcrossed⟩ : d < 0 ∧ Instant.crossed s.instant t.instant x.next = true := by
        simpa [State.passesOver] using hp
      obtain ⟨halarm, hnotice, hrecord⟩ := State.passAlarm_spec s.instant t.instant v a x (hva.trans hx) hcrossed
      obtain ⟨hone, hmany⟩ := x.count_spec t.instant
      have hlater := h.forward hd
      refine ⟨hlater.notice 11 (hpass.notice 11 hnotice), x.count t.instant, fun hp0 => ⟨hone hp0, ?_⟩, fun hp0 => ?_,
        fun hnone => ?_⟩
      · rw [hforward hd, halarm, if_pos hp0]
      · obtain ⟨hle, hlt⟩ := hmany hp0
        refine ⟨hle, hlt, ?_⟩
        rw [hforward hd, halarm, if_neg hp0]
        rfl
      · have hvlacks : v.lacks (Body.isAlarm a) := hv.records.lacks (hl fun w hw => by
          by_contra hc
          obtain ⟨m, hm⟩ := Body.eq_of_isAlarm (Bool.not_eq_false _ ▸ hc)
          exact hnone w hw m hm)
        obtain ⟨e, he, h1, h2, h3, h4, h5⟩ := hrecord fun e he m hm => by
          have hno := hvlacks e he
          rw [hm] at hno
          simp [Body.isAlarm] at hno
        have halarmed : e.body.isAlarm a = true := by rw [h5]; simp [Body.isAlarm]
        have hclocked : e.body.clocked = false := by rw [h5]; rfl
        refine ⟨e, (hlater.mem e hclocked).2 (hpass.records.mem e he halarmed), ?_, ?_, h3, h4, h5⟩
        · rw [h1, h.epoch, hv.tb]
        · rw [h2, h.cls, hv.du]

/-- What the move does to a group that `u` has as `s` has it (R114). -/
theorem State.PassesTo.groupPassed {g : Fin 64} (hg : u.group g = s.group g) : s.groupPassed t d g := by
  by_cases hd : d < 0
  · have hkept : (u.passTimers s.instant t.instant).GroupKept g t := (h.forward hd).groupKept
    have hstepped {stamp : Stamp} {body : Body} (hb : body.isGroup = true)
        (hr : (u.passTimers s.instant t.instant).steppedRecord g stamp u.du.cls body) :
        t.steppedRecord g stamp t.du.cls body := by
      obtain ⟨e, he, h1, h2, h3, h4, h5, h6⟩ := hr
      exact ⟨e, (hkept.mem e (h6 ▸ hb) h3).2 he, h1, h.cls ▸ h2, h3, h4, h5, h6⟩
    obtain ⟨-, hrecords⟩ := u.passTimers_records s.instant t.instant
    obtain ⟨hcall, hwindow, hclose⟩ := hrecords g
    have hgroup : t.group g = (s.group g).passedTo s.instant t.instant t.tb.epoch := by
      rw [hkept.group, State.passTimers_group, hg, h.epoch]
    rw [hg] at hcall hwindow hclose
    unfold State.groupPassed
    simp only [State.passesOver_forward hd]
    refine ⟨hgroup, fun hc => ?_, fun hc => ?_, fun drawn hc hdrawn => ?_⟩
    · exact h.epoch ▸ hstepped rfl (hcall hc)
    · exact h.epoch ▸ hstepped rfl (hwindow hc)
    · rw [hdrawn] at hc
      exact hstepped rfl (hclose drawn hdrawn hc)
  · have hgroup : t.group g = s.group g := ((h.back hd).groupKept (g := g)).group.trans hg
    unfold State.groupPassed
    simp only [State.passesOver_back hd]
    refine ⟨?_, nofun, nofun, fun drawn hc hdrawn => ?_⟩
    · rw [hgroup]
      generalize s.group g = x
      cases x with
      | mk _ _ _ _ _ _ _ drawn _ _ _ _ _ _ => cases drawn <;> simp
    · rw [hdrawn] at hc
      exact Bool.noConfusion hc

/-- A group with no timer armed stays as `u` has it. -/
theorem State.PassesTo.groupKept {g : Fin 64} (hg : (u.group g).Unarmed) : u.GroupKept g t := by
  by_cases hd : d < 0
  · exact (State.passTimers_groupKept hg ..).trans (h.forward hd).groupKept
  · exact (h.back hd).groupKept

end

/-! ## Running groups abandoned at a set (R113) -/

/-- A running group as a set abandons it. -/
def Group.abandonedNow (x : Group) : Group :=
  { x with callTimer := false, windowTimer := false, closeTimer := false, abandonPending := true }

section
variable (pre : Stamp) (cls : TraceClass) (s : State)

theorem State.abandonGroup_group (g : Fin 64) : (s.abandonGroup pre cls g).group g =
    if (s.group g).running then (s.group g).abandonedNow else s.group g := by
  unfold State.abandonGroup
  split
  · simp [Group.abandonedNow]
  · rfl

theorem State.abandonGroup_groupKept {g k : Fin 64} (h : k ≠ g) : s.GroupKept g (s.abandonGroup pre cls k) := by
  unfold State.abandonGroup
  split
  · refine ⟨(State.setGroup_group_ne (s.removeGroupRecords k fun _ => true) _ (Ne.symm h)).trans rfl, fun e he hg => ?_⟩
    have hne : e.group ≠ k.val := fun hk => h (Fin.ext (hk.symm.trans hg))
    rw [State.mem_create_of_isGroup _ _ _ _ _ _ rfl]
    refine ⟨fun hm => ?_, fun hm => .inr (List.mem_filter.2 ⟨hm, by simp [hne]⟩)⟩
    rcases hm with rfl | hm
    · exact absurd rfl hne
    · exact (List.mem_filter.1 hm).1
  · exact .refl s

/-- Of a running group's records only the ABANDON waits. -/
theorem State.abandonGroup_records {g : Fin 64} (h : (s.group g).running = true) :
    let t := s.abandonGroup pre cls g
    let body := (s.group g).abandonBody .set pre.epoch
    (∃ e ∈ t.sqm.agenda, e.stamp = pre ∧ e.cls = cls ∧ e.group = g.val ∧ e.body = body)
      ∧ ∀ e ∈ t.sqm.agenda, e.body.isGroup = true → e.group = g.val → e.stamp = pre ∧ e.body = body := by
  intro t body
  have ht : t = ((s.removeGroupRecords g fun _ => true).setGroup g (s.group g).abandonedNow).create pre cls g.val false
      false body := if_pos h
  have hmem (e : Internal) := ht ▸ State.mem_create_of_isGroup ((s.removeGroupRecords g fun _ => true).setGroup g
      (s.group g).abandonedNow) pre cls g.val false false (body := body) rfl e
  refine ⟨⟨_, (hmem _).2 (.inl rfl), rfl, rfl, rfl, rfl⟩, fun e he hg hk => ?_⟩
  rcases (hmem e).1 he with rfl | he
  · exact ⟨rfl, rfl⟩
  · have hout := (List.mem_filter.1 he).2
    simp [hg, hk] at hout

/-- What the abandonment leaves of group `g`. -/
theorem State.abandonRunning_spec (g : Fin 64) :
    ∃ v, s.GroupKept g v ∧ (v.abandonGroup pre cls g).GroupKept g (s.abandonRunning pre cls) :=
  foldl_around (R := State.GroupKept g) .refl .trans (fun t _ hk => t.abandonGroup_groupKept pre cls hk)
    (List.nodup_finRange 64) (List.mem_finRange g) s

theorem State.abandonRunning_alarm (a : Fin 8) : (s.abandonRunning pre cls).alarm a = s.alarm a := by
  have hstep (t : State) (g : Fin 64) : (t.abandonGroup pre cls g).alarm a = t.alarm a := by
    unfold State.abandonGroup
    split
    · rfl
    · rfl
  have hfold (l : List (Fin 64)) (t : State) : (l.foldl (State.abandonGroup pre cls) t).alarm a = t.alarm a := by
    induction l generalizing t with
    | nil => rfl
    | cons g l ih => exact (ih _).trans (hstep t g)
  exact hfold _ s

end

/-! ## What a step and a set do to ATU -/

theorem State.AddsClocks.lacksAlarm {s t : State} (h : s.AddsClocks t) {a : Fin 8} (hs : s.lacks (Body.isAlarm a)) :
    t.lacks (Body.isAlarm a) := by
  intro w hw
  cases hc : w.body.clocked with
  | false => exact hs w ((h.mem w hc).1 hw)
  | true =>
    cases hb : w.body with
    | clock => rfl
    | _ => rw [hb] at hc; exact absurd hc Bool.false_ne_true

/-- A step passes every timer in its span over and abandons nothing. -/
theorem State.PassesTo.timersMoved_step {s u t : State} {d : Int} (h : s.PassesTo u t d) (hu : s.AddsClocks u) :
    s.timersMoved t d false := by
  refine ⟨fun g => ?_, fun a => h.alarmPassed (by rw [State.alarm, State.alarm, hu.atu]) hu.lacksAlarm⟩
  rw [if_neg (by simp)]
  exact h.groupPassed (by rw [State.group, State.group, hu.atu])

/-- A set abandons the running groups first (R113). -/
theorem State.PassesTo.timersMoved_set {s p u t : State} {d : Int} (h : s.PassesTo u t d) (hatu : p.atu = s.atu)
    (hsqm : p.sqm = s.sqm) (hu : (p.abandonRunning s.now s.du.cls).AddsClocks u) : s.timersMoved t d true := by
  have hgroup (g : Fin 64) : p.group g = s.group g := by rw [State.group, State.group, hatu]
  refine ⟨fun g => ?_, fun a => h.alarmPassed ?_ fun hs => hu.lacksAlarm ?_⟩
  · obtain ⟨v, hv, hlater⟩ := p.abandonRunning_spec s.now s.du.cls g
    have hvg : v.group g = s.group g := hv.group.trans (hgroup g)
    have hkept := hlater.trans (hu.groupKept (g := g))
    have hug : u.group g = if (s.group g).running then (s.group g).abandonedNow else s.group g := by
      rw [hkept.group, State.abandonGroup_group, hvg]
    split
    · next hc =>
      have hr : (s.group g).running = true := (Group.running_iff _).2 hc.2
      have hentry := hug.trans (if_pos hr)
      have hafter := hkept.trans (h.groupKept (g := g) (by rw [hentry]; exact ⟨rfl, rfl, rfl⟩))
      obtain ⟨⟨e, he, h1, h2, h3, h4⟩, honly⟩ := v.abandonGroup_records s.now s.du.cls (g := g) (by rwa [hvg])
      rw [hvg] at h4 honly
      refine ⟨?_, ⟨e, (hafter.mem e (by rw [h4]; rfl) h3).2 he, h1, h2, h3, h4⟩, fun e he hg hk => ?_⟩
      · rw [(h.groupKept (g := g) (by rw [hentry]; exact ⟨rfl, rfl, rfl⟩)).group, hentry]
        rfl
      · exact honly e ((hafter.mem e hg hk).1 he) hg hk
    · next hc =>
      have hr : ¬ (s.group g).running = true := fun hr => hc ⟨rfl, (Group.running_iff _).1 hr⟩
      exact h.groupPassed (hug.trans (if_neg hr))
  · rw [State.alarm, hu.atu]
    refine (State.abandonRunning_alarm s.now s.du.cls p a).trans ?_
    rw [State.alarm, State.alarm, hatu]
  · refine (State.abandonRunning_keepsClass (isClass_isAlarm a) (isAlarm_of_isGroup a) p s.now s.du.cls).lacks ?_
    rwa [State.lacks, hsqm]

end Sys2Proof.Machine
end

section
/-! A step and an initial set (O21, O23). -/

namespace Sys2Proof.Machine

open Sys2Proof

/-! ## What comes after the counter's part adds CLOCK records alone -/

theorem State.AddsClocks.thenNotify {s t : State} (h : s.AddsClocks t) (c : Cause) : s.AddsClocks (t.notify c) :=
  ⟨h.toKeepsNotices.thenNotify c, h.atu, h.mem⟩

section
variable (s : State) (sec : Second)

theorem State.stateChanged_addsClocks (old : DState) : s.AddsClocks (s.stateChanged old sec) :=
  .ite (.thenNotify (s.create_addsClocks _ _ _ _ _ (by rfl)) _) (.refl s)

theorem State.holdDemand_addsClocks (newly : Bool) : s.AddsClocks (s.holdDemand newly sec) := by
  refine .ite ?_ (.refl s)
  have hcreate := (s.notify .stepHeld).handHeld.create_addsClocks s.now s.du.cls 255 false false (body := .clock sec.theta
    sec.latch (.held s.now (s.heldTime sec.d) sec.d (decide (sec.d > 0)))) rfl
  have hnotice := ((State.KeepsNotices.refl s).thenNotify .stepHeld).notice
  exact ⟨⟨fun i hi => hcreate.notice i (hnotice i hi)⟩, hcreate.atu, hcreate.mem⟩

theorem State.classChanged_addsClocks (old : TraceClass) (now : Stamp) (cls : TraceClass) :
    s.AddsClocks (s.classChanged old now cls) :=
  .ite (.thenNotify (s.create_addsClocks _ _ _ _ _ (by rfl)) _) (.refl s)

theorem State.adoptOffset_addsClocks : s.AddsClocks (s.adoptOffset sec) := by
  refine .ite ?_ (.refl s)
  have hcreate := s.create_addsClocks s.now s.du.cls 255 false false (body := .clock sec.theta sec.latch
    (.offset s.tb.utcOffset sec.utcOffset)) rfl
  exact ⟨⟨hcreate.notice⟩, hcreate.atu, hcreate.mem⟩

theorem State.handSecond_addsClocks (servo : Bool) : s.AddsClocks (s.handSecond servo sec) :=
  .of_same (by simp) (by simp) (by simp)

theorem State.moved_addsClocks : (s.moved sec).AddsClocks (s.workOf sec) :=
  ((((State.stateChanged_addsClocks _ sec s.du.state).trans (State.holdDemand_addsClocks _ sec _)).trans
    (State.classChanged_addsClocks _ s.du.cls _ _)).trans (State.adoptOffset_addsClocks _ sec)).trans
      (State.handSecond_addsClocks _ sec _)

theorem State.workOf_evidence : (s.workOf sec).att.nextBoundary = (s.moved sec).att.nextBoundary
    ∧ (s.workOf sec).att.periodStart = s.att.periodStart
    ∧ (s.workOf sec).att.chk0 = (s.moved sec).att.chk0 ∧ (s.workOf sec).att.chk1 = (s.moved sec).att.chk1 := by
  have hatt : (s.adopted sec).att = { (s.moved sec).att with stepHeld := (s.demanded sec).att.stepHeld } := by
    rw [← s.demanded_att]
    simp [State.adopted, State.classed]
  have hhand (t : State) (servo : Bool) : (t.handSecond servo sec).att.nextBoundary = t.att.nextBoundary
      ∧ (t.handSecond servo sec).att.chk0 = t.att.chk0 ∧ (t.handSecond servo sec).att.chk1 = t.att.chk1 := by
    unfold State.handSecond
    dsimp only
    split <;> split <;> exact ⟨rfl, rfl, rfl⟩
  obtain ⟨h1, h2, h3⟩ := hhand (s.adopted sec) (servoSecond s.du.state (s.du.state.after sec.cause))
  rw [← s.workOf_eq, hatt] at h1 h2 h3
  refine ⟨h1, ?_, h2, h3⟩
  rw [s.workOf_att]

end

/-! ## The counter's part as the timers see it -/

/-- A move whose timers `u` passes over. -/
theorem State.passesTo_workOf {s u : State} {sec : Second}
    (hmoved : s.moved sec = if sec.d < 0 then u.passTimers s.instant (s.workOf sec).instant else u) :
    s.PassesTo u (s.workOf sec) sec.d := by
  have hsame : (s.moved sec).tb = u.tb ∧ (s.moved sec).du = u.du := by
    rw [hmoved]
    split <;> simp
  refine ⟨?_, ?_, fun hd => ?_, fun hd => ?_⟩
  · rw [s.workOf_tb, hsame.1]
  · rw [s.workOf_du, ← s.moved_du, hsame.2]
  · exact (hmoved.trans (if_neg hd)) ▸ s.moved_addsClocks sec
  · exact (hmoved.trans (if_pos hd)) ▸ s.moved_addsClocks sec

/-- The evidence after a move whose last act of ATT is `moveEvidence`. -/
theorem State.evidenceMoved_workOf {s u : State} {sec : Second} {post : Instant} (hatt : u.att = s.att)
    (hmoved : (s.moved sec).att = (u.moveEvidence post).att) (hpost : (s.workOf sec).instant = post) :
    s.evidenceMoved (s.workOf sec) := by
  obtain ⟨h1, h2, h3, h4⟩ := s.workOf_evidence sec
  rw [hmoved] at h1 h3 h4
  refine ⟨?_, h2, h3.trans ?_, h4.trans ?_, fun l => ?_⟩
  · rw [h1]
    simp only [State.moveEvidence, boundaryAfter, Config.secondsWrap, ← hpost, hatt, State.instant, ge_iff_le,
      ← not_lt, ite_not]
  · rw [← hatt]
    rfl
  · rw [← hatt]
    rfl
  · rw [State.line, State.line, (s.workOf_rest sec).2.1]

/-- `s` with the record of the move, and ATT after it. -/
def State.recording (s : State) (pre : Stamp) (cls : TraceClass) (theta : Int) (marker : Option Stamp) (post : Instant)
    (body : ClockBody) : State :=
  (s.recordMove pre cls theta marker body).moveEvidence post

theorem State.recording_addsClocks (s : State) (pre : Stamp) (cls : TraceClass) (theta : Int) (marker : Option Stamp)
    (post : Instant) (body : ClockBody) : s.AddsClocks (s.recording pre cls theta marker post body) := by
  have hcreate := s.create_addsClocks pre cls 255 false false (body := .clock theta marker body) rfl
  exact ⟨⟨hcreate.notice⟩, hcreate.atu, hcreate.mem⟩

theorem State.recording_holds {s : State} {k : Nat} {body : ClockBody} (hk : body.code = k) (h : s.lacks (Body.isClock k))
    (pre : Stamp) (cls : TraceClass) (theta : Int) (marker : Option Stamp) (post : Instant) :
    (s.recording pre cls theta marker post body).holds pre cls (.clock theta marker body) :=
  State.create_holds (isClass_isClock k) (by simpa [Body.isClock] using hk) h pre cls

/-- The same with the counter placed at `post` first: the part whose timers a forward move passes over. -/
def State.passing (s : State) (pre : Stamp) (cls : TraceClass) (sec : Second) (frac : Nat) (post : Stamp) (body : ClockBody) :
    State :=
  (s.placeCounter post.instant frac post.epoch).recording pre cls sec.theta sec.latch post.instant body

theorem State.passing_addsClocks (s : State) (pre : Stamp) (cls : TraceClass) (sec : Second) (frac : Nat) (post : Stamp)
    (body : ClockBody) : s.AddsClocks (s.passing pre cls sec frac post body) := by
  have hplace : s.AddsClocks (s.placeCounter post.instant frac post.epoch) := .of_same rfl rfl rfl
  exact hplace.trans (State.recording_addsClocks ..)

theorem State.passing_holds {s : State} {k : Nat} {body : ClockBody} (hk : body.code = k) (h : s.lacks (Body.isClock k))
    (pre : Stamp) (cls : TraceClass) (sec : Second) (frac : Nat) (post : Stamp) :
    (s.passing pre cls sec frac post body).holds pre cls (.clock sec.theta sec.latch body) := by
  have hplace : (s.placeCounter post.instant frac post.epoch).lacks (Body.isClock k) := h
  exact State.recording_holds hk hplace ..

/-- What passing the timers over leaves of CLOCK records, and the rest of the work after it. -/
theorem State.workOf_holds_moved {s : State} {sec : Second} {k : Nat} (hk : k = 2 ∨ k = 3) {stamp : Stamp}
    {cls : TraceClass} {body : Body} (hb : body.isClock k = true) (h : (s.moved sec).holds stamp cls body) :
    (s.workOf sec).holds stamp cls body := by
  have hlater : (s.moved sec).KeepsClass (Body.isClock k) (s.workOf sec) := by
    have hne : 1 ≠ k ∧ 7 ≠ k ∧ 5 ≠ k ∧ 4 ≠ k := by omega
    obtain ⟨h1, h7, h5, h4⟩ := hne
    exact (((State.stateChanged_keepsClock h1 _ s.du.state sec).trans (State.holdDemand_keepsClock h7 _ _ sec)).trans
      (State.classChanged_keepsClass h5 _ s.du.cls _ _)).trans ((State.adoptOffset_keepsClock h4 _ sec).trans
        (.of_agenda (by rw [s.workOf_sqm]; rfl)))
  exact hlater.holds hb h

/-! ## A step (R12) -/

/-- The part before the counter's move: DU's values are new, and the demand has ended. -/
def State.beforeMove (s : State) (sec : Second) : State :=
  { s.planned sec with tb := { (s.planned sec).tb with demand := none } }

/-- The part whose timers the step passes over. -/
def State.stepPassing (s : State) (sec : Second) : State :=
  (s.beforeMove sec).passing s.now s.du.cls sec s.tb.frac (s.movedBy sec.d) (.step s.now (s.movedBy sec.d))

section
variable {s : State} {sec : Second} (hmv : s.moveOf sec = .step)
include hmv

theorem State.moved_of_step : s.moved sec = if sec.d < 0 then
    (s.stepPassing sec).passTimers s.instant (s.movedBy sec.d).instant else s.stepPassing sec := by
  rw [State.moved, hmv]
  rfl

theorem State.workOf_tb_of_step : (s.workOf sec).now = s.movedBy sec.d ∧ (s.workOf sec).tb.frac = s.tb.frac
    ∧ (s.workOf sec).tb.demand = none := by
  have htb : (s.moved sec).tb = (s.stepPassing sec).tb := by
    rw [State.moved_of_step hmv]
    split <;> simp
  rw [State.now, s.workOf_tb, htb]
  exact ⟨rfl, rfl, rfl⟩

end

theorem State.duAfter_of_step (s : State) {sec : Second} (h : s.du.state.after sec.cause = .locked) :
    (s.duAfter sec .step).i = (servo s.du.steering s.du.i sec.theta).1
      ∧ (s.duAfter sec .step).c = -(servo s.du.steering s.du.i sec.theta).1
      ∧ (s.duAfter sec .step).e = min 4000000000 (max sec.accuracy s.du.limits.floor) := by
  simp only [State.duAfter, State.ratesAfter, State.errorAfter, h, true_and, Config.errorMax]

/-- Settles O21: the step places the counter, and its timers are passed over from there. -/
theorem stepApplied : Obligations.StepApplied := by
  intro s sec rest hs hev hc hst hdemand hbig hgate hepoch hw
  let u := s.atSecond rest
  have hact : u.actOn sec = u.workOf sec := State.actOn_of_evidenceDone (s := u) hev sec
  have hmv : u.moveOf sec = .step := State.moveOf_of_open (s := u) hc hst hbig hdemand hgate hepoch
  obtain ⟨(hnow : _ = s.movedBy sec.d), hfrac, hnone⟩ := State.workOf_tb_of_step hmv
  have hdu : (u.workOf sec).du = u.duAfter sec .step := hmv ▸ u.workOf_du sec
  obtain ⟨hi, hcc, he⟩ := u.duAfter_of_step (sec := sec) (hc ▸ (DState.after_of_tracks hst).1)
  rw [← hdu] at hi hcc he
  have hpost : (u.workOf sec).instant = (s.movedBy sec.d).instant := congrArg Stamp.instant hnow
  have hmoved : u.moved sec = if sec.d < 0 then (u.stepPassing sec).passTimers u.instant (u.workOf sec).instant
      else u.stepPassing sec := by
    rw [hpost]
    exact State.moved_of_step hmv
  have hadds : u.AddsClocks (u.stepPassing sec) :=
    State.AddsClocks.trans (t := u.beforeMove sec) (.of_same rfl rfl rfl) (State.passing_addsClocks ..)
  refine ⟨(u.workOf sec).reading, hact ▸ exec_actionInstant_of_acts hs, ?_, ?_, hfrac, ?_, hnone, hi, ?_,
    u.workOf_inc sec, he, ?_, ?_, ?_⟩
  · show ((u.workOf sec).now.sec : Int) * 1000000000 + ((u.workOf sec).now.ns : Int) = _
    rw [hnow]
    exact s.movedBy_total sec.d
  · show (u.workOf sec).now.ns < 1000000000
    rw [hnow]
    exact Instant.ofTotal_ns _
  · exact congrArg Stamp.epoch hnow
  · exact hcc.trans (congrArg _ hi.symm)
  · have hstep : (u.stepPassing sec).holds s.now s.du.cls (.clock sec.theta sec.latch (.step s.now (s.movedBy sec.d))) :=
      State.passing_holds (s := u.beforeMove sec) (k := 2) rfl (State.lacks_of_not_waits (s := s) hw) ..
    have hrecord : (u.moved sec).holds s.now s.du.cls (.clock sec.theta sec.latch (.step s.now (s.movedBy sec.d))) := by
      rw [hmoved]
      exact (State.KeepsClass.ite (State.passTimers_keepsClock ..) (.refl _)).holds (q := Body.isClock 2) rfl hstep
    rw [← hnow] at hrecord
    exact State.workOf_holds_moved (.inl rfl) rfl hrecord
  · exact (State.passesTo_workOf hmoved).timersMoved_step hadds
  · refine State.evidenceMoved_workOf (s := u) (u := u) (post := (s.movedBy sec.d).instant) rfl ?_ hpost
    have hatt : (u.moved sec).att = (u.stepPassing sec).att := by
      rw [hmoved]
      split <;> simp
    exact hatt.trans rfl

end Sys2Proof.Machine
end

section
/-! The initial set (O23) and SET_TIME (O15). -/

namespace Sys2Proof.Machine

open Sys2Proof

/-! ## The initial set (R17) -/

section
variable {p : State} {cls : TraceClass} {sec : Second}

theorem State.applySet_of_held (h : p.tb.epoch ≥ Config.epochMax ∧ sec.d > 0) : p.applySet cls sec =
    (p.abandonRunning p.now cls).recording p.now cls sec.theta sec.latch p.now.instant (.set p.now p.now) := if_pos h

theorem State.applySet_of_free (h : ¬ (p.tb.epoch ≥ Config.epochMax ∧ sec.d > 0)) : p.applySet cls sec =
    State.afterMove (((p.abandonRunning p.now cls).placeCounter (p.movedBy sec.d).instant p.tb.frac
      (p.movedBy sec.d).epoch).recordMove p.now cls sec.theta sec.latch (.set p.now (p.movedBy sec.d))) p.now.instant
      (p.movedBy sec.d).instant sec.d := if_neg h

theorem State.recording_att {w s : State} (h : w.att = s.att) (pre : Stamp) (theta : Int) (marker : Option Stamp)
    (post : Instant) (body : ClockBody) :
    (w.recording pre cls theta marker post body).att = (s.moveEvidence post).att := by
  have hatt : (w.recording pre cls theta marker post body).att = (w.moveEvidence post).att := rfl
  rw [hatt, State.moveEvidence, State.moveEvidence, h]

theorem State.recording_tb (w : State) (pre : Stamp) (theta : Int) (marker : Option Stamp) (post : Instant)
    (body : ClockBody) : (w.recording pre cls theta marker post body).tb = w.tb := rfl

theorem State.passing_tb (w : State) (pre : Stamp) (frac : Nat) (post : Stamp) (body : ClockBody) :
    (w.passing pre cls sec frac post body).tb = { w.tb with sec := post.sec, ns := post.ns, frac := frac, epoch := post.epoch } :=
  rfl

theorem State.passing_att {w s : State} (h : w.att = s.att) (pre : Stamp) (frac : Nat) (post : Stamp) (body : ClockBody) :
    (w.passing pre cls sec frac post body).att = (s.moveEvidence post.instant).att :=
  State.recording_att (w := w.placeCounter post.instant frac post.epoch) h pre sec.theta sec.latch post.instant body

theorem State.afterMove_recorded (w : State) (pre : Stamp) (frac : Nat) (post : Stamp) (body : ClockBody) (i : Instant) :
    State.afterMove ((w.placeCounter post.instant frac post.epoch).recordMove pre cls sec.theta sec.latch body) i post.instant
      sec.d = if sec.d < 0 then (w.passing pre cls sec frac post body).passTimers i post.instant
        else w.passing pre cls sec frac post body := rfl

end

/-- The time an initial set leaves: at epoch 65,535 a backward one is not carried out. -/
def State.setPost (s : State) (d : Int) : Stamp := if s.tb.epoch ≥ 65535 ∧ d > 0 then s.now else s.movedBy d

/-- The part with the running groups abandoned, before the counter's move. -/
def State.beforeSet (s : State) (sec : Second) : State := (s.beforeMove sec).abandonRunning s.now s.du.cls

/-- `u` is the part whose timers the initial set passes over. -/
structure State.SetPasses (s : State) (sec : Second) (u : State) : Prop where
  adds : (s.beforeSet sec).AddsClocks u
  tb : u.tb = { (s.beforeMove sec).tb with
    sec := (s.setPost sec.d).sec, ns := (s.setPost sec.d).ns, epoch := (s.setPost sec.d).epoch }
  att : u.att = (s.moveEvidence (s.setPost sec.d).instant).att
  holds : ¬ s.waits 3 → u.holds s.now s.du.cls (.clock sec.theta sec.latch (.set s.now (s.setPost sec.d)))
  moved : s.moved sec = if sec.d < 0 then u.passTimers s.instant (s.setPost sec.d).instant else u

theorem State.beforeSet_lacks {s : State} {sec : Second} (h : ¬ s.waits 3) : (s.beforeSet sec).lacks (Body.isClock 3) := by
  unfold State.beforeSet
  exact (State.abandonRunning_keepsClass (isClass_isClock 3) (isClock_of_isGroup 3) (s.beforeMove sec) s.now s.du.cls).lacks
    (State.lacks_of_not_waits (s := s) h)

theorem State.beforeSet_same (s : State) (sec : Second) :
    (s.beforeSet sec).tb = (s.beforeMove sec).tb ∧ (s.beforeSet sec).att = s.att := by
  simp [State.beforeSet, State.beforeMove, State.planned, State.setInc]

theorem State.setPasses_of_set {s : State} {sec : Second} (hmv : s.moveOf sec = .set) : ∃ u, s.SetPasses sec u := by
  obtain ⟨htb, hatt⟩ := s.beforeSet_same sec
  have hset : s.moved sec = (s.beforeMove sec).applySet s.du.cls sec := by
    rw [State.moved, hmv]
    rfl
  by_cases hh : s.tb.epoch ≥ 65535 ∧ sec.d > 0
  · have hpost : s.setPost sec.d = s.now := if_pos hh
    have hmoved : s.moved sec = (s.beforeSet sec).recording s.now s.du.cls sec.theta sec.latch s.instant (.set s.now s.now) := by
      rw [hset, State.applySet_of_held (by exact hh)]
      rfl
    refine ⟨(s.beforeSet sec).recording s.now s.du.cls sec.theta sec.latch s.instant (.set s.now s.now), State.recording_addsClocks ..,
      ?_, ?_, fun hw => ?_, hmoved.trans (if_neg (by omega)).symm⟩
    · rw [hpost, State.recording_tb, htb]
      rfl
    · rw [hpost]
      exact State.recording_att hatt ..
    · rw [hpost]
      exact State.recording_holds (k := 3) rfl (State.beforeSet_lacks hw) ..
  · have hpost : s.setPost sec.d = s.movedBy sec.d := if_neg hh
    let body : ClockBody := .set s.now (s.movedBy sec.d)
    have hmoved : s.moved sec = if sec.d < 0 then
        ((s.beforeSet sec).passing s.now s.du.cls sec s.tb.frac (s.movedBy sec.d) body).passTimers s.instant
          (s.movedBy sec.d).instant
        else (s.beforeSet sec).passing s.now s.du.cls sec s.tb.frac (s.movedBy sec.d) body := by
      rw [hset, State.applySet_of_free (by exact hh)]
      exact State.afterMove_recorded ..
    refine ⟨_, State.passing_addsClocks .., ?_, ?_, fun hw => ?_, hpost ▸ hmoved⟩
    · rw [hpost, State.passing_tb, htb]
      rfl
    · rw [hpost]
      exact State.passing_att hatt ..
    · rw [hpost]
      exact State.passing_holds (k := 3) rfl (State.beforeSet_lacks hw) ..

/-- Settles O23: the set abandons the running groups, places the counter, and its timers are passed over from there. -/
theorem initialSet : Obligations.InitialSet := by
  intro s sec rest hs hev hst hc hwait
  let u := s.atSecond rest
  have hafter : s.du.state.after sec.cause = .locked := by rw [hst, hc]; rfl
  have hact : u.actOn sec = u.workOf sec := State.actOn_of_evidenceDone (s := u) hev sec
  have hmv : u.moveOf sec = .set := if_pos ⟨hst, hafter⟩
  obtain ⟨w, hw⟩ := State.setPasses_of_set hmv
  have htb : (u.moved sec).tb = w.tb := by
    rw [hw.moved]
    split <;> simp
  have hnow : (u.workOf sec).now = s.setPost sec.d := by
    rw [State.now, u.workOf_tb, htb, hw.tb]
    rfl
  have hpost : (u.workOf sec).instant = (s.setPost sec.d).instant := congrArg Stamp.instant hnow
  have hmoved : u.moved sec = if sec.d < 0 then w.passTimers u.instant (u.workOf sec).instant else w := by
    rw [hpost]
    exact hw.moved
  have hdu : (u.workOf sec).du = u.duAfter sec .set := hmv ▸ u.workOf_du sec
  obtain ⟨hi, hcc, he⟩ := u.duAfter_of_set sec hafter
  rw [← hdu] at hi hcc he
  refine ⟨(u.workOf sec).reading, hact ▸ exec_actionInstant_of_acts hs, ?_, hi, hcc, ?_, ?_, ?_, he, ?_, ?_, ?_, ?_, ?_⟩
  · exact (congrArg DU.state hdu).trans hafter
  · exact (u.workOf_inc sec).trans (by rw [hcc]; rfl)
  · exact State.workOf_demand.trans (by rw [htb, hw.tb]; rfl)
  · exact (congrArg TB.frac (u.workOf_tb sec)).trans (by rw [htb, hw.tb]; rfl)
  · split
    · next hh => exact hnow.trans (if_pos hh)
    · next hh =>
      have hfree : (u.workOf sec).now = s.movedBy sec.d := hnow.trans (if_neg hh)
      refine ⟨?_, ?_, congrArg Stamp.epoch hfree⟩
      · show ((u.workOf sec).now.sec : Int) * 1000000000 + ((u.workOf sec).now.ns : Int) = _
        rw [hfree]
        exact s.movedBy_total sec.d
      · show (u.workOf sec).now.ns < 1000000000
        rw [hfree]
        exact Instant.ofTotal_ns _
  · have hrecord : (u.moved sec).holds s.now s.du.cls (.clock sec.theta sec.latch (.set s.now (s.setPost sec.d))) := by
      rw [hmoved]
      exact (State.KeepsClass.ite (State.passTimers_keepsClock ..) (.refl _)).holds (q := Body.isClock 3) rfl (hw.holds hwait)
    rw [← hnow] at hrecord
    exact State.workOf_holds_moved (.inr rfl) rfl hrecord
  · exact (congrArg TB.utcOffset (u.workOf_tb sec)).trans (if_pos ⟨by rw [hc]; rfl, hafter⟩)
  · exact (State.passesTo_workOf hmoved).timersMoved_set (p := u.beforeMove sec) rfl rfl hw.adds
  · refine State.evidenceMoved_workOf (s := u) (u := u) (post := (s.setPost sec.d).instant) rfl ?_ hpost
    have hatt : (u.moved sec).att = w.att := by
      rw [hmoved]
      split <;> simp
    exact hatt.trans hw.att

end Sys2Proof.Machine
end

section
/-! SET_TIME (O15). -/

namespace Sys2Proof.Machine

open Sys2Proof

/-! ## What a SET_TIME finds -/

theorem State.recognizeEdge_answersAs (s : State) (k : CheckInput) (now : Stamp) : s.AnswersAs (s.recognizeEdge k now) := by
  unfold State.recognizeEdge
  split
  · exact .refl s
  · dsimp only
    split
    · exact ⟨by simp, by simp, by simp, by simp⟩
    · exact .refl s

theorem State.closePeriod_answersAs (s : State) : s.AnswersAs s.closePeriod := by
  have hjudged : s.AnswersAs s.work.settleJudge := ⟨by simp, by simp, by simp, by simp⟩
  have hedges (t : State) : t.AnswersAs ((t.recognizeEdge .chk0 t.now).recognizeEdge .chk1 (t.recognizeEdge .chk0 t.now).now) :=
    (t.recognizeEdge_answersAs ..).trans (State.recognizeEdge_answersAs ..)
  have hend (t : State) : t.AnswersAs (if t.boundaryDue then t.emitBoundary t else t).flush := by
    split <;> exact ⟨by simp, by simp, by simp, by simp⟩
  exact (hjudged.trans (hedges _)).trans (hend _)

theorem State.runTimers_answersAs (s : State) : s.AnswersAs s.runTimers := by
  unfold State.runTimers
  split
  · have hsettle : s.AnswersAs (s.settleTimers s.done.du.cls) := ⟨by simp, by simp, by simp, by simp⟩
    refine hsettle.trans ?_
    unfold State.promise
    split <;> exact ⟨rfl, rfl, rfl, rfl⟩
  · exact .refl s

theorem State.nextPeriod_answersAs (s : State) : s.AnswersAs s.nextPeriod := by
  have hadvance (t : State) : t.AnswersAs t.advance := ⟨rfl, rfl, rfl, rfl⟩
  exact (s.closePeriod_answersAs.trans (hadvance _)).trans (State.runTimers_answersAs _)

theorem State.done_answersAs (s : State) : s.AnswersAs s.done := ⟨by simp, by simp, by simp, by simp⟩

theorem State.atSetTime_answersAs (s : State) (target : HostTime) : s.AnswersAs (s.atSetTime target) := by
  unfold State.atSetTime
  dsimp only
  split
  · exact (s.done_answersAs.trans s.done.nextPeriod_answersAs).trans (State.done_answersAs _)
  · exact s.done_answersAs

/-- The target lies before the counter, as the statement spells it. -/
abbrev State.setsBack (w : State) (target : HostTime) : Prop :=
  target.sec.toNat < w.tb.sec ∨ (target.sec.toNat = w.tb.sec ∧ target.ns.toNat < w.tb.ns)

theorem State.setsBack_iff (w : State) (target : HostTime) :
    (hostInstant target).blt w.instant = true ↔ w.setsBack target := Instant.blt_iff ..

theorem hostTimeOk_iff (t : HostTime) : hostTimeOk t = true ↔ t.ns.toNat ≤ 999999999 := by simp [hostTimeOk]

section
variable {w : State} {target : HostTime}

theorem State.timeRefusal_state (h : w.du.state ≠ .free) : w.timeRefusal target = some .state := if_pos h

theorem State.timeRefusal_range (hf : w.du.state = .free) (h : 999999999 < target.ns.toNat) :
    w.timeRefusal target = some .range := by
  have hno : hostTimeOk target = false := Bool.eq_false_iff.2 fun hc => absurd ((hostTimeOk_iff _).1 hc) (by omega)
  rw [State.timeRefusal, if_neg (not_not.2 hf), if_pos (by simp [hno])]

theorem State.timeRefusal_rest (hf : w.du.state = .free) (h : target.ns.toNat ≤ 999999999) :
    w.timeRefusal target = if w.setsBack target ∧ 65535 ≤ w.tb.epoch then some .limit else none := by
  rw [State.timeRefusal, if_neg (not_not.2 hf), if_neg (by simp [(hostTimeOk_iff _).2 h])]
  simp only [Bool.and_eq_true, w.setsBack_iff, decide_eq_true_eq, Config.epochMax, ge_iff_le]

/-- A SET_TIME that nothing refuses. -/
theorem State.timeRefusal_none : w.timeRefusal target = none ↔
    w.du.state = .free ∧ target.ns.toNat ≤ 999999999 ∧ ¬ (w.setsBack target ∧ 65535 ≤ w.tb.epoch) := by
  by_cases hf : w.du.state = .free
  · by_cases hn : target.ns.toNat ≤ 999999999
    · rw [State.timeRefusal_rest hf hn]
      simp [hf, hn]
    · rw [State.timeRefusal_range hf (by omega)]
      simp [hn]
  · rw [State.timeRefusal_state hf]
    simp [hf]

end

/-! ## The set at take -/

/-- `w` with its counter at the target and DU's rates 0. -/
def State.retimed (w : State) (target : Instant) (epoch : Nat) : State :=
  let placed := w.placeCounter target 0 epoch
  State.setInc { placed with du := { placed.du with i := 0, c := 0 } }

theorem State.retimed_addsClocks (w : State) (target : Instant) (epoch : Nat) : w.AddsClocks (w.retimed target epoch) :=
  .of_same rfl rfl rfl

/-- What the hand-over at the end of a set leaves. -/
theorem State.handed_same (w : State) : w.handOver.reading.tb = w.tb ∧ w.handOver.reading.du = w.du
    ∧ w.handOver.reading.att = { w.att with
      worstState := w.att.worstState.worse w.du.state, worstCls := w.att.worstCls.worse w.du.cls
      eMax := max w.att.eMax w.du.e }
    ∧ w.handOver.reading.lines = w.lines := ⟨rfl, rfl, rfl, rfl⟩

theorem State.handed_addsClocks (w : State) : w.AddsClocks w.handOver.reading := .of_same rfl rfl rfl

theorem State.handed_holds {w : State} {t : Stamp} {cls : TraceClass} {body : Body} (h : w.holds t cls body) :
    w.handOver.reading.holds t cls body := h

theorem State.handed_answersAs (w : State) : w.AnswersAs w.handOver.reading := ⟨rfl, rfl, rfl, rfl⟩

/-- The part whose timers a set moving the counter back by `d` passes over. -/
def State.timePassing (v : State) (target : Instant) (d : Int) : State :=
  ((v.abandonRunning v.now v.du.cls).retimed target (epochAfter v.tb.epoch d)).recording v.now v.du.cls (saturate d) none
    target (.set v.now (target.at (epochAfter v.tb.epoch d)))

theorem State.settleAdvance_of_evidenceDone {s : State} (h : s.evidenceDone) (v : State) : s.settleAdvance v = s := by
  have hjudge : s.settleJudge = s := if_neg (by simp [h.2])
  simp [State.settleAdvance, hjudge, h.1]

section
variable {v : State} (hev : v.evidenceDone) (target : Instant)

/-- How far back the set moves the counter. -/
abbrev State.setBy (v : State) (target : Instant) : Int := (v.instant.total : Int) - (target.total : Int)

/-- The set before its hand-over. -/
def State.timeMoved (v : State) (target : Instant) : State :=
  if v.setBy target < 0 then (v.timePassing target (v.setBy target)).passTimers v.instant target
  else v.timePassing target (v.setBy target)

theorem State.afterMove_recording (w : State) (pre : Stamp) (cls : TraceClass) (theta : Int) (body : ClockBody)
    (i post : Instant) (d : Int) : (w.recordMove pre cls theta none body).afterMove i post d =
      if d < 0 then (w.recording pre cls theta none post body).passTimers i post
      else w.recording pre cls theta none post body := rfl

include hev in
theorem State.setTimeTo_eq : v.setTimeTo target = (v.timeMoved target).handOver.reading := by
  have hset : v.setTimeTo target = ((((v.abandonRunning v.now v.du.cls).retimed target (epochAfter v.tb.epoch
      (v.setBy target))).recordMove v.now v.du.cls (saturate (v.setBy target)) none (.set v.now (target.at (epochAfter
        v.tb.epoch (v.setBy target))))).afterMove v.instant target (v.setBy target)).handOver.reading := by
    simp only [State.setTimeTo, State.settleAdvance_of_evidenceDone hev]
    rfl
  rw [hset, State.afterMove_recording]
  rfl

theorem State.timeMoved_same : (v.timeMoved target).tb = (v.timePassing target (v.setBy target)).tb
    ∧ (v.timeMoved target).du = (v.timePassing target (v.setBy target)).du
    ∧ (v.timeMoved target).att = (v.timePassing target (v.setBy target)).att := by
  unfold State.timeMoved
  split <;> simp

theorem State.timePassing_tb (d : Int) : (v.timePassing target d).tb = { v.tb with
    sec := target.sec, ns := target.ns, frac := 0, epoch := epochAfter v.tb.epoch d, inc := 17179869184 } := by
  have htb : (v.abandonRunning v.now v.du.cls).tb = v.tb := by simp
  have hpassing : (v.timePassing target d).tb = { (v.abandonRunning v.now v.du.cls).tb with
      sec := target.sec, ns := target.ns, frac := 0, epoch := epochAfter v.tb.epoch d, inc := incOf 0 } := by
    unfold State.timePassing
    generalize v.abandonRunning v.now v.du.cls = w
    rfl
  rw [hpassing, htb]
  rfl

theorem State.timePassing_du (d : Int) : (v.timePassing target d).du = { v.du with i := 0, c := 0 } := by
  have hdu : (v.abandonRunning v.now v.du.cls).du = v.du := by simp
  have hpassing : (v.timePassing target d).du = { (v.abandonRunning v.now v.du.cls).du with i := 0, c := 0 } := by
    unfold State.timePassing
    generalize v.abandonRunning v.now v.du.cls = w
    rfl
  rw [hpassing, hdu]

theorem State.timePassing_att (d : Int) : (v.timePassing target d).att = (v.moveEvidence target).att := by
  have hatt : (v.abandonRunning v.now v.du.cls).att = v.att := by simp
  unfold State.timePassing
  generalize v.abandonRunning v.now v.du.cls = w at hatt
  exact State.recording_att (w := w.retimed target (epochAfter v.tb.epoch d)) hatt ..

theorem State.timePassing_addsClocks (d : Int) : (v.abandonRunning v.now v.du.cls).AddsClocks (v.timePassing target d) := by
  unfold State.timePassing
  exact (State.retimed_addsClocks ..).trans (State.recording_addsClocks ..)

theorem State.timePassing_holds (d : Int) (hw : ¬ v.waits 3) : (v.timePassing target d).holds v.now v.du.cls
    (.clock (saturate d) none (.set v.now (target.at (epochAfter v.tb.epoch d)))) := by
  have hlacks : (v.abandonRunning v.now v.du.cls).lacks (Body.isClock 3) :=
    (State.abandonRunning_keepsClass (isClass_isClock 3) (isClock_of_isGroup 3) v v.now v.du.cls).lacks
      (State.lacks_of_not_waits hw)
  unfold State.timePassing
  generalize v.abandonRunning v.now v.du.cls = w at hlacks
  exact State.recording_holds (s := w.retimed target (epochAfter v.tb.epoch d)) (k := 3) rfl hlacks ..

theorem State.timeMoved_rest : (v.timeMoved target).rail33 = v.rail33 ∧ (v.timeMoved target).rail09 = v.rail09
    ∧ (v.timeMoved target).osc = v.osc ∧ (v.timeMoved target).lines = v.lines ∧ (v.timeMoved target).ctl = v.ctl
    ∧ (v.timeMoved target).evt = v.evt ∧ (v.timeMoved target).cap = v.cap ∧ (v.timeMoved target).pst = v.pst
    ∧ (v.timeMoved target).posted = v.posted ∧ (v.timeMoved target).draws = v.draws
    ∧ (v.timeMoved target).pending = v.pending := by
  unfold State.timeMoved
  split <;> simp [State.timePassing, State.retimed, State.recording, State.setInc, State.placeCounter, State.moveEvidence]

theorem State.timeMoved_frame : v.timeMoved target = { v with
    tb := (v.timeMoved target).tb, du := (v.timeMoved target).du, clock := (v.timeMoved target).clock
    sqm := (v.timeMoved target).sqm, atu := (v.timeMoved target).atu, att := (v.timeMoved target).att
    prt := (v.timeMoved target).prt, ep := (v.timeMoved target).ep, wire := (v.timeMoved target).wire } := by
  have hrest := v.timeMoved_rest target
  generalize v.timeMoved target = t at hrest
  obtain ⟨h1, h2, h3, h4, h5, h6, h7, h8, h9, h10, h11⟩ := hrest
  cases t
  subst h1 h2 h3 h4 h5 h6 h7 h8 h9 h10 h11
  rfl

theorem State.timeMoved_answersAs : v.AnswersAs (v.timeMoved target) := by
  have habandon : v.AnswersAs (v.abandonRunning v.now v.du.cls) := ⟨by simp, by simp, by simp, by simp⟩
  have hrecord (w : State) (epoch : Nat) (theta : Int) (body : ClockBody) :
      w.AnswersAs ((w.retimed target epoch).recording v.now v.du.cls theta none target body) := ⟨rfl, rfl, rfl, rfl⟩
  have hpass (w : State) : w.AnswersAs (w.passTimers v.instant target) := ⟨by simp, by simp, by simp, by simp⟩
  unfold State.timeMoved State.timePassing
  split
  · exact (habandon.trans (hrecord ..)).trans (hpass _)
  · exact habandon.trans (hrecord ..)

end

/-- `t` is what a set to `target` leaves of `v`. -/
structure State.TimeSet (v : State) (target : Instant) (t : State) : Prop where
  tb : t.tb = { v.tb with
    sec := target.sec, ns := target.ns, frac := 0, epoch := epochAfter v.tb.epoch (v.setBy target), inc := 17179869184 }
  du : t.du = { v.du with i := 0, c := 0 }
  att : t.att = { (v.moveEvidence target).att with
    worstState := v.att.worstState.worse v.du.state, worstCls := v.att.worstCls.worse v.du.cls
    eMax := max v.att.eMax v.du.e }
  read : t.clock.read = true
  passes : v.PassesTo (v.timePassing target (v.setBy target)) t (v.setBy target)
  holds : ¬ v.waits 3 → t.holds v.now v.du.cls (.clock (saturate (v.setBy target)) none
    (.set v.now (target.at (epochAfter v.tb.epoch (v.setBy target)))))
  answers : v.AnswersAs t
  frame : t = { v with
    tb := t.tb, du := t.du, clock := t.clock, sqm := t.sqm, atu := t.atu, att := t.att, prt := t.prt, ep := t.ep
    wire := t.wire }

/-- A part whose timers are passed over, with the hand-over behind them. -/
theorem State.passesTo_handed {v u w : State} {d : Int} {target : Instant} (htb : w.tb = u.tb) (hdu : w.du = u.du)
    (hinstant : u.instant = target) (hback : ¬ d < 0 → w = u) (hforward : d < 0 → w = u.passTimers v.instant target) :
    v.PassesTo u w.handOver.reading d := by
  have hout : w.handOver.reading.instant = target := by rw [← hinstant, State.instant, State.instant, w.handed_same.1, htb]
  refine ⟨congrArg TB.epoch htb, congrArg DU.cls hdu, fun hd => ?_, fun hd => ?_⟩
  · exact hback hd ▸ w.handed_addsClocks
  · rw [hout]
    exact hforward hd ▸ w.handed_addsClocks

/-- A frame that the hand-over keeps. -/
theorem State.handed_frame {v w : State} (h : w = { v with
      tb := w.tb, du := w.du, clock := w.clock, sqm := w.sqm, atu := w.atu, att := w.att, prt := w.prt, ep := w.ep
      wire := w.wire }) :
    w.handOver.reading = { v with
      tb := w.handOver.reading.tb, du := w.handOver.reading.du, clock := w.handOver.reading.clock
      sqm := w.handOver.reading.sqm, atu := w.handOver.reading.atu, att := w.handOver.reading.att
      prt := w.handOver.reading.prt, ep := w.handOver.reading.ep, wire := w.handOver.reading.wire } :=
  (congrArg (fun u : State => u.handOver.reading) h).trans rfl

theorem State.timeMoved_passesTo (v : State) (target : Instant) :
    v.PassesTo (v.timePassing target (v.setBy target)) (v.timeMoved target).handOver.reading (v.setBy target) := by
  obtain ⟨htb, hdu, -⟩ := v.timeMoved_same target
  refine State.passesTo_handed htb hdu ?_ (fun hd => if_neg hd) (fun hd => if_pos hd)
  rw [State.instant, State.timePassing_tb]

theorem State.timeMoved_holds {v : State} (hw : ¬ v.waits 3) (target : Instant) : (v.timeMoved target).holds v.now v.du.cls
    (.clock (saturate (v.setBy target)) none (.set v.now (target.at (epochAfter v.tb.epoch (v.setBy target))))) :=
  (State.KeepsClass.ite (State.passTimers_keepsClock ..) (.refl _)).holds (q := Body.isClock 3) rfl
    (v.timePassing_holds target _ hw)

theorem State.timeSet_setTimeTo {v : State} (hev : v.evidenceDone) (target : Instant) : v.TimeSet target (v.setTimeTo target) := by
  obtain ⟨htb, hdu, hatt⟩ := v.timeMoved_same target
  rw [State.timePassing_tb] at htb
  rw [State.timePassing_du] at hdu
  rw [State.timePassing_att] at hatt
  rw [State.setTimeTo_eq hev]
  obtain ⟨hkeeptb, hkeepdu, hkeepatt, -⟩ := (v.timeMoved target).handed_same
  refine ⟨hkeeptb.trans htb, hkeepdu.trans hdu, ?_, rfl, v.timeMoved_passesTo target,
    fun hw => State.handed_holds (State.timeMoved_holds hw target), (v.timeMoved_answersAs target).trans (State.handed_answersAs _),
    State.handed_frame (v.timeMoved_frame target)⟩
  rw [hkeepatt, hatt, hdu]
  rfl

/-- Settles O15: the refusals in their order, then the set. -/
theorem setTime : Obligations.SetTime := by
  intro s off h target hs u v new before legal earlier
  have hlegal (w : State) : legal w ↔ w.timeRefusal target = none := State.timeRefusal_none.symm
  have hans : s.AnswersAs v := s.atSetTime_answersAs target
  have hrefuse {st : SlotStatus} (hr : v.timeRefusal target = some st) :
      exec (.setTime target) s = .next (v.slotAnswered off h 16 [] st) := by
    refine takeControl_of_answer hs ?_ hans
    show v.setTime target = _
    rw [State.setTime, hr]
    rfl
  refine ⟨fun hr hl => ?_, fun hn => ?_, fun hf => hrefuse (State.timeRefusal_state hf),
    fun hf hn => hrefuse (State.timeRefusal_range hf hn), fun hf hn hb he => ?_, fun hf hn hb hns hev hw => ?_⟩
  · exact if_pos (by rw [show s.done.clock.read = true from hr, (hlegal u).1 hl]; rfl)
  · refine if_neg fun hc => ?_
    obtain ⟨hread, hnone⟩ := Bool.and_eq_true_iff.1 hc
    rcases hn with hn | hn
    · exact absurd hread (by rw [show s.done.clock.read = false from hn]; decide)
    · exact hn ((hlegal u).2 (Option.isNone_iff_eq_none.1 hnone))
  · exact hrefuse ((State.timeRefusal_rest hf hn).trans (if_pos ⟨hb, he⟩))
  · let i : Instant := hostInstant target
    have hnone : v.timeRefusal target = none := State.timeRefusal_none.2 ⟨hf, hn, hb⟩
    have hset : v.setTime target = granted (v.setTimeTo i) (time16 v.now ++ time16 (i.at (v.setTimeTo i).tb.epoch)) := by
      rw [State.setTime, hnone]
    obtain ⟨t, ht, htset⟩ : ∃ t, v.setTimeTo i = t ∧ v.TimeSet i t := ⟨_, rfl, State.timeSet_setTimeTo hev i⟩
    obtain ⟨htb, hdu, hatt, hread, hpasses, hholds, htans, hframe⟩ := htset
    rw [ht] at hset
    have hback : v.setBy i > 0 ↔ earlier := by
      show ((v.tb.sec * 1000000000 + v.tb.ns : Nat) : Int) - ((new.sec * 1000000000 + new.ns : Nat) : Int) > 0
        ↔ new.sec < v.tb.sec ∨ (new.sec = v.tb.sec ∧ new.ns < v.tb.ns)
      have hnew : new.ns < 1000000000 := by omega
      omega
    have hepoch : epochAfter v.tb.epoch (v.setBy i) = if earlier then v.tb.epoch + 1 else v.tb.epoch := by
      rw [epochAfter]
      simp only [hback]
    have hby : v.setBy i = v.position - ((new.sec : Int) * 1000000000 + (new.ns : Int)) := by
      rw [State.setBy, v.position_eq]
      show _ - ((new.sec * 1000000000 + new.ns : Nat) : Int) = _
      omega
    have hnow : t.now = i.at (epochAfter v.tb.epoch (v.setBy i)) := by
      rw [State.now, htb]
      rfl
    have hinstant : t.instant = i := congrArg Stamp.instant hnow
    refine ⟨t, ?_, htb.trans ?_, hdu, ?_, ?_, ?_, hread, hatt.trans ?_, hframe⟩
    · refine takeControl_of_answer hs ?_ (hans.trans htans)
      show v.setTime target = _
      rw [hset, hnow, htb]
      rfl
    · rw [hepoch]
      rfl
    · rw [hnow, ← hby]
      exact hholds hw
    · rw [← hby]
      exact hpasses.timersMoved_set (p := v) rfl rfl (v.timePassing_addsClocks i _)
    · refine ⟨?_, ?_, ?_, ?_, fun l => ?_⟩
      · rw [hatt, htb]
        simp only [State.moveEvidence, boundaryAfter, Config.secondsWrap, ge_iff_le, ← not_lt, ite_not]
      · rw [hatt]
        rfl
      · rw [hatt]
        rfl
      · rw [hatt]
        rfl
      · rw [hframe]
        rfl
    · rw [hatt]
      rfl

end Sys2Proof.Machine
end
